-- ==== Sys2Proof/Word.lean ====
section
/-!
DEFINITION. The word types of the block.
Every field, buffer cell and bus address is one byte (R6, R75), and every status code has three bits (R110 to R112).
-/

namespace Sys2Proof

/-- An unsigned 8-bit value; bit 7 is the most significant (00_scope.md section 4). -/
abbrev Byte := BitVec 8

/-- A 3-bit status code (R110, R111, R112). -/
abbrev Code := BitVec 3

end Sys2Proof
end

