-- ==== Sys2Proof/Config.lean ====
section
/-!
DEFINITION. The configuration record of 00_scope.md section 3 (R2), and the model's free values.
The record is plain data: State holds one, and no event writes it (R84).
-/

namespace Sys2Proof

/-- One of the two daisy-chain links of a node (00_scope.md section 3, link count 2). -/
inductive Link where
  | link0
  | link1
  deriving DecidableEq, Repr

/-- The checksum combiner `CS_FOLD`, a configuration field (R202).
`rotXor` is the default, `rotl8(c, 1) xor b`.
`chosen` is any other combiner an implementer chooses: it is uninterpreted (`Config.chosenFold`), so that
what is proved of it holds of every combiner. -/
inductive CsFold where
  | rotXor
  | chosen
  deriving DecidableEq, Repr

/-- The parameters of 00_scope.md section 3 (R2). `RX_CAP` and `HDR_LEN` are derived or fixed. -/
structure Config where
  /-- `START`, 8 bits. -/
  startByte : Byte
  /-- `END`, 8 bits. -/
  endByte : Byte
  /-- `ESC`, 8 bits. -/
  escByte : Byte
  /-- `CTRL_ADDR`, 8 bits. -/
  ctrlAddr : Byte
  /-- `WILDCARD`, 8 bits. -/
  wildcard : Byte
  /-- `MAX_BODY`, 1..254. -/
  maxBody : Nat
  /-- `CS_SEED`, 8 bits. -/
  csSeed : Byte
  /-- `CS_FOLD`. -/
  csFold : CsFold
  /-- `T_MSG`, a natural of at least 1, in ticks. -/
  tMsg : Nat
  /-- `TIE_LINK`. -/
  tieLink : Link
  /-- `N_NODES`, a natural of at least 1. No rule of one block reads it: a chain is composed of that many nodes
  (R270, `Chain.composed`), and R5 puts no constraint on it. -/
  nNodes : Nat
  deriving DecidableEq, Repr

/-- Free value: the combiner behind `CsFold.chosen` (R202 and 92_eei_decisions.md D7: a free design parameter). -/
opaque Config.chosenFold : Byte → Byte → Byte

/-- Free value: one less than the reset machine's `T_MSG`, which the spec leaves OPEN but for `T_MSG >= 1` (R220, D12). -/
opaque Config.openBound : Nat

/-- Free value: one less than the reset machine's `N_NODES`, which the spec leaves OPEN but for `N_NODES >= 1` (I18). -/
opaque Config.openNodes : Nat

/-- Free value: what header register `i` holds after power-on number `draw` (R340, I1). -/
opaque Config.freeHdr : (draw i : Nat) → Byte

/-- Free value: what a buffer cell `i` that nothing has written since power-on number `draw` holds (R340, I1). -/
opaque Config.freeData : (draw i : Nat) → Byte

/-- The defaults of 00_scope.md section 3, with `T_MSG` and `N_NODES` left open. -/
def Config.default : Config where
  startByte := 0x3E
  endByte := 0x0A
  escByte := 0x5C
  ctrlAddr := 0x00
  wildcard := 0xFF
  maxBody := 10
  csSeed := 0x00
  csFold := .rotXor
  tMsg := Config.openBound + 1
  tieLink := .link0
  nNodes := Config.openNodes + 1

end Sys2Proof
end

