-- ==== Sys2Proof/Syntax.lean ====
section
/-!
DEFINITION. The instructions of the block and what the environment presents at its port.
The block executes no stored program: its instructions are the rows of spec/opcode_table.json, that is the wire's
byte classes and escaped pairs, the frame's fields, the whole frame, and the input events of R104.
-/

namespace Sys2Proof

/-- A message as `SEND` takes it and a frame carries it (R45, R180), less its checksum. -/
structure Message where
  destLow : Byte
  destHigh : Byte
  source : Byte
  type : Byte
  body : List Byte
  deriving DecidableEq, Repr

/-- One constructor per row of spec/opcode_table.json. -/
inductive Instr where
  /-- START: the start marker arrives on the wire (R92). -/
  | startMark
  /-- END: the end marker arrives on the wire (R92). -/
  | endMark
  /-- ESC: the escape byte arrives on the wire (R94). -/
  | escMark
  /-- DATA: a byte outside `RES` arrives on the wire (R92). -/
  | data (d : Byte)
  /-- ESC_START: the pair `ESC START` (R93). -/
  | escStart
  /-- ESC_END: the pair `ESC END` (R93). -/
  | escEnd
  /-- ESC_ESC: the pair `ESC ESC` (R93). -/
  | escEsc
  /-- ESC_DATA: the redundant escape `ESC d` (R95). -/
  | escData (d : Byte)
  /-- FRAME_DESTLOW: the wire form `E(x)` of the field at position 0 (R90). -/
  | frameDestLow (x : Byte)
  /-- FRAME_DESTHIGH: the wire form `E(x)` of the field at position 1 (R90). -/
  | frameDestHigh (x : Byte)
  /-- FRAME_SOURCE: the wire form `E(x)` of the field at position 2 (R90). -/
  | frameSource (x : Byte)
  /-- FRAME_TYPE: the wire form `E(x)` of the field at position 3 (R90, R103). -/
  | frameType (x : Byte)
  /-- FRAME_BODY: the wire form `E(x)` of one body byte (R90, R99). -/
  | frameBody (x : Byte)
  /-- FRAME_CHECKSUM: the wire form `E(x)` of the checksum byte (R90, R201). -/
  | frameChecksum (x : Byte)
  /-- FRAME: all the wire bytes of one frame (R90). -/
  | frame (m : Message)
  /-- FEED(b) (R130). -/
  | feed (b : Byte)
  /-- POLL (R223). -/
  | poll
  /-- TICK (R221). -/
  | tick
  /-- RESET (R150). -/
  | reset
  /-- READ_MSG (R152). -/
  | readMsg
  /-- SEND(m) (R181). -/
  | send (m : Message)
  /-- MATCH(lo, hi, a) (R240). -/
  | matchRange (lo hi a : Byte)
  /-- DC_STEP(s0, s1) (R260). -/
  | dcStep (s0 s1 : Bool)
  /-- DC_GRANT(a) (R265). -/
  | dcGrant (a : Byte)
  /-- POR (R340). -/
  | por
  deriving DecidableEq, Repr

/-- The field positions of R90's table. -/
inductive FieldName where
  | destLow
  | destHigh
  | source
  | type
  | body
  | checksum
  deriving DecidableEq, Repr

/-- The event names of R104. -/
inductive EventName where
  | feed
  | poll
  | tick
  | reset
  | readMsg
  | send
  | matchRange
  | dcStep
  | dcGrant
  | por
  deriving DecidableEq, Repr

/-- One operand of an event: eight bits or one (R104). -/
inductive Operand where
  | byte (b : Byte)
  | bit (v : Bool)
  deriving DecidableEq, Repr

/-- What the environment presents at the block's port, before decoding.
The wire carries bytes (R73); a field is its position's name and its wire bytes (R90); an event is its name and
its operands in the order of spec/opcode_table.json, since R104 gives the events no number. -/
inductive Port where
  | wire (bs : List Byte)
  | field (f : FieldName) (bs : List Byte)
  | event (e : EventName) (ops : List Operand)
  deriving DecidableEq, Repr

/-- The destination pseudo-forms of the frame notation (R98). -/
inductive DestForm where
  /-- `to a`. -/
  | single (a : Byte)
  /-- `to lo..hi`. -/
  | range (lo hi : Byte)
  /-- `to lo..*`. -/
  | onward (lo : Byte)
  /-- `to all`. -/
  | all
  /-- `to controller`. -/
  | controller
  deriving DecidableEq, Repr

end Sys2Proof
end

