-- ==== Sys2Proof/Machine/Wire.lean ====
section
/-!
DEFINITION. The byte-level helpers of the wire format: the constraints on a configuration (R5), the reserved set
(R92), escaping (R93), the checksum (R200 to R202), the frame of a message (R90, R180) and the range checks
(R138, R240, R243).
-/

namespace Sys2Proof

/-- `RX_CAP = MAX_BODY + 1`: the body and its trailing checksum byte (R35). -/
def Config.rxCap (c : Config) : Nat := c.maxBody + 1

/-- The constraints of R5. -/
def Config.valid (c : Config) : Bool :=
  c.startByte != c.endByte && c.startByte != c.escByte && c.endByte != c.escByte &&
    c.wildcard != c.ctrlAddr && decide (1 ≤ c.maxBody) && decide (c.maxBody ≤ 254) && decide (1 ≤ c.tMsg)

/-- Membership in `RES = {START, END, ESC}` (R92). -/
def Config.reserved (c : Config) (b : Byte) : Bool :=
  b == c.startByte || b == c.endByte || b == c.escByte

/-- `E(b)` (R93). -/
def Config.escape (c : Config) (b : Byte) : List Byte :=
  if c.reserved b then [c.escByte, b] else [b]

/-- `rotl8(c, k)` for `k` in 0..7 (R200). -/
def rotl8 (c : Byte) (k : Nat) : Byte :=
  if k = 0 then c else (c <<< k) ||| (c >>> (8 - k))

/-- `CS_FOLD` (R202). -/
def Config.fold (c : Config) (acc b : Byte) : Byte :=
  match c.csFold with
  | .rotXor => rotl8 acc 1 ^^^ b
  | .chosen => Config.chosenFold acc b

/-- `checksum(fields)` (R201). -/
def Config.checksum (c : Config) (fields : List Byte) : Byte :=
  fields.foldl c.fold c.csSeed

/-- `[destLow, destHigh, source, type] ++ body`, the bytes the checksum covers (R201). -/
def Message.fields (m : Message) : List Byte :=
  [m.destLow, m.destHigh, m.source, m.type] ++ m.body

/-- `encode(m)` (R180): the frame of R90. -/
def Config.encodeFrame (c : Config) (m : Message) : List Byte :=
  [c.startByte] ++ (m.fields ++ [c.checksum m.fields]).flatMap c.escape ++ [c.endByte]

/-- `destHigh != WILDCARD and destLow > destHigh`: the invalid range of R138. -/
def Config.badRange (c : Config) (lo hi : Byte) : Bool :=
  hi != c.wildcard && decide (hi < lo)

/-- `MATCH(lo, hi, a)` (R240). `a = 0`, a node without an address, never matches (R240's corner case, R241, R344); under
`CTRL_ADDR = 0` the other tests give that already.
DESIGN CHOICE (log entry 23): with another `CTRL_ADDR` R240's pseudocode lets a range from 0 match `a = 0`, and the model keeps
R241. -/
def Config.matchAddr (c : Config) (lo hi a : Byte) : Bool :=
  if a = 0 then false
  else if lo = c.ctrlAddr then false
  else if hi = c.wildcard then decide (lo ≤ a)
  else if hi < lo then false
  else decide (lo ≤ a) && decide (a ≤ hi)

/-- `FOR_CONTROLLER(lo, hi)` (R243), the controller's own test. -/
def Config.forController (c : Config) (lo _hi : Byte) : Bool := lo == c.ctrlAddr

/-- The expansion of R98's table, which writes the controller's destination as 0 0 (log entry 23). -/
def Config.expandDest (c : Config) : DestForm → Byte × Byte
  | .single a => (a, a)
  | .range lo hi => (lo, hi)
  | .onward lo => (lo, c.wildcard)
  | .all => (1, c.wildcard)
  | .controller => (0, 0)

/-- The link that is not `l`: `1 - l` (R41). -/
def Link.other : Link → Link
  | .link0 => .link1
  | .link1 => .link0

end Sys2Proof
end

