-- ==== Sys2Proof/WellFormed.lean ====
section
/-!
DEFINITION. Which instructions the opcode table admits, under a configuration: a DATA or ESC_DATA byte is none of
the reserved three, and a FRAME or a SEND has a body of at most `MAX_BODY` bytes. Every other operand takes any value.
-/

namespace Sys2Proof

/-- The operand ranges of spec/opcode_table.json. -/
def WellFormed (c : Config) : Instr → Bool
  | .data d => !c.reserved d
  | .escData d => !c.reserved d
  | .frame m => decide (m.body.length ≤ c.maxBody)
  | .send m => decide (m.body.length ≤ c.maxBody)
  | .startMark | .endMark | .escMark | .escStart | .escEnd | .escEsc => true
  | .frameDestLow _ | .frameDestHigh _ | .frameSource _ | .frameType _ | .frameBody _ | .frameChecksum _ => true
  | .feed _ | .poll | .tick | .reset | .readMsg | .matchRange _ _ _ | .dcStep _ _ | .dcGrant _ | .por => true

end Sys2Proof
end

