-- ==== Sys2Proof/Decode.lean ====
section
/-!
DEFINITION. The decoder of the block's port, total on every port item and rejecting by name, and after it the
encoder, written from the same tables (R90, R92, R93, R104 and spec/opcode_table.json).
This is the decoding of port items to instructions; the byte-serial frame decoder of the hardware is Machine/Ops.lean.
-/

namespace Sys2Proof

/-- Why a port item is no row of the table. -/
inductive DecodeReject where
  /-- A wire unit of no bytes. -/
  | emptyUnit
  /-- Two wire bytes whose first is not `ESC`: they are two units, not a pair (R93). -/
  | notAnEscapedPair
  /-- Three or more wire bytes that are not `START ... END` with every reserved byte, and only those, escaped (R90, R93). -/
  | notAFrame
  /-- A frame with fewer than the four header bytes and the checksum (R96). -/
  | frameTooShort
  /-- A frame of more than `MAX_BODY` body bytes (R90). -/
  | frameBodyTooLong
  /-- A frame whose last byte before `END` is not the checksum of its fields (R90, R201). -/
  | frameChecksumWrong
  /-- A field's bytes that are not `E(x)` of one byte `x` (R93). -/
  | notAField
  /-- An event with operands other than its own (R104). -/
  | wrongOperands
  deriving DecidableEq, Repr

/-- What the decoder answers. -/
inductive Decoded where
  | instr (i : Instr)
  | reject (r : DecodeReject)
  deriving DecidableEq, Repr

/-- The byte classes of R92. -/
def decodeByte (c : Config) (b : Byte) : Instr :=
  if b = c.startByte then .startMark
  else if b = c.endByte then .endMark
  else if b = c.escByte then .escMark
  else .data b

/-- The byte after `ESC`: an escaped reserved byte (R93) or a redundant escape (R95). -/
def decodeEscaped (c : Config) (b : Byte) : Instr :=
  if b = c.startByte then .escStart
  else if b = c.endByte then .escEnd
  else if b = c.escByte then .escEsc
  else .escData b

/-- The field bytes of a frame's tail: canonical escapes up to an `END` that is the last byte (R90, R93). -/
def unescapeTail (c : Config) : List Byte → Option (List Byte)
  | [] => none
  | [b] => if b = c.endByte then some [] else none
  | b :: x :: rest =>
    if b = c.escByte then
      if c.reserved x then (unescapeTail c rest).map (x :: ·) else none
    else if c.reserved b then none
    else (unescapeTail c (x :: rest)).map (b :: ·)

/-- The fields of a frame, split into the message and its checksum (R90, R91). -/
def decodeFields (c : Config) : List Byte → Decoded
  | lo :: hi :: src :: ty :: x :: rest =>
    let m : Message :=
      { destLow := lo, destHigh := hi, source := src, type := ty, body := (x :: rest).dropLast }
    if c.maxBody < m.body.length then .reject .frameBodyTooLong
    else if (x :: rest).getLast? = some (c.checksum m.fields) then .instr (.frame m)
    else .reject .frameChecksumWrong
  | _ => .reject .frameTooShort

/-- A whole frame (R90). -/
def decodeFrame (c : Config) : List Byte → Decoded
  | [] => .reject .emptyUnit
  | b :: tail =>
    if b = c.startByte then
      match unescapeTail c tail with
      | some fields => decodeFields c fields
      | none => .reject .notAFrame
    else .reject .notAFrame

/-- Wire units: one byte, a pair, or a frame. The shortest frame has 7 bytes (R96), so the lengths tell them apart. -/
def decodeWire (c : Config) : List Byte → Decoded
  | [] => .reject .emptyUnit
  | [b] => .instr (decodeByte c b)
  | [e, b] => if e = c.escByte then .instr (decodeEscaped c b) else .reject .notAnEscapedPair
  | bs => decodeFrame c bs

/-- The byte `x` whose `E(x)` these wire bytes are (R93). -/
def decodeFieldByte (c : Config) : List Byte → Option Byte
  | [b] => if c.reserved b then none else some b
  | [e, b] => if e = c.escByte ∧ c.reserved b = true then some b else none
  | _ => none

/-- The instruction of a field position (R90). -/
def fieldInstr : FieldName → Byte → Instr
  | .destLow, x => .frameDestLow x
  | .destHigh, x => .frameDestHigh x
  | .source, x => .frameSource x
  | .type, x => .frameType x
  | .body, x => .frameBody x
  | .checksum, x => .frameChecksum x

/-- The operands of `SEND` after the header: bytes only. -/
def bodyOperands : List Operand → Option (List Byte)
  | [] => some []
  | .byte b :: rest => (bodyOperands rest).map (b :: ·)
  | .bit _ :: _ => none

/-- The events of R104, each with its own operands. -/
def decodeEvent : EventName → List Operand → Decoded
  | .feed, [.byte b] => .instr (.feed b)
  | .poll, [] => .instr .poll
  | .tick, [] => .instr .tick
  | .reset, [] => .instr .reset
  | .readMsg, [] => .instr .readMsg
  | .send, .byte l :: .byte h :: .byte s :: .byte t :: rest =>
    match bodyOperands rest with
    | some body => .instr (.send { destLow := l, destHigh := h, source := s, type := t, body := body })
    | none => .reject .wrongOperands
  | .matchRange, [.byte l, .byte h, .byte a] => .instr (.matchRange l h a)
  | .dcStep, [.bit x, .bit y] => .instr (.dcStep x y)
  | .dcGrant, [.byte a] => .instr (.dcGrant a)
  | .por, [] => .instr .por
  | _, _ => .reject .wrongOperands

/-- The decoder. -/
def decode (c : Config) : Port → Decoded
  | .wire bs => decodeWire c bs
  | .field f bs =>
    match decodeFieldByte c bs with
    | some x => .instr (fieldInstr f x)
    | none => .reject .notAField
  | .event e ops => decodeEvent e ops

/-- The encoder: the port item of an instruction. -/
def encode (c : Config) : Instr → Port
  | .startMark => .wire [c.startByte]
  | .endMark => .wire [c.endByte]
  | .escMark => .wire [c.escByte]
  | .data d => .wire [d]
  | .escStart => .wire [c.escByte, c.startByte]
  | .escEnd => .wire [c.escByte, c.endByte]
  | .escEsc => .wire [c.escByte, c.escByte]
  | .escData d => .wire [c.escByte, d]
  | .frameDestLow x => .field .destLow (c.escape x)
  | .frameDestHigh x => .field .destHigh (c.escape x)
  | .frameSource x => .field .source (c.escape x)
  | .frameType x => .field .type (c.escape x)
  | .frameBody x => .field .body (c.escape x)
  | .frameChecksum x => .field .checksum (c.escape x)
  | .frame m => .wire (c.encodeFrame m)
  | .feed b => .event .feed [.byte b]
  | .poll => .event .poll []
  | .tick => .event .tick []
  | .reset => .event .reset []
  | .readMsg => .event .readMsg []
  | .send m => .event .send (([m.destLow, m.destHigh, m.source, m.type] ++ m.body).map .byte)
  | .matchRange lo hi a => .event .matchRange [.byte lo, .byte hi, .byte a]
  | .dcStep s0 s1 => .event .dcStep [.bit s0, .bit s1]
  | .dcGrant a => .event .dcGrant [.byte a]
  | .por => .event .por []

/-- The wire bytes of a row of `nbits` bits given as one number. The table writes a pair in wire order from its most
significant bit, so the first byte on the wire is the number's most significant byte. -/
def tableBytes (nbits w : Nat) : List Byte :=
  (List.range (nbits / 8)).map fun i => BitVec.ofNat 8 (w >>> (8 * (nbits / 8 - 1 - i)))

/-- The instruction the decoder reads from a table row's number, under the default configuration. -/
def decodeTableWord (nbits w : Nat) : Option Instr :=
  match decode Config.default (.wire (tableBytes nbits w)) with
  | .instr i => some i
  | .reject _ => none

end Sys2Proof
end

