-- ==== Sys2Proof/Machine/State.lean ====
section
/-!
DEFINITION. The state of the machine, as plain data: the four groups of 10_state.md (decoder, encoder, daisy-chain FSM,
node identity), the configuration the step runs under, and the model's own fields (the pending events, the results
so far, the transport's credit, the power-on draw). With it the reasons a step stops, and the state after reset.
-/

namespace Sys2Proof.Machine

/-- The decoder state register (R30). -/
inductive PState where
  | idle
  | header
  | active
  | ready
  | ignored
  | aborted
  | overflowed
  | timedOut
  deriving DecidableEq, Repr

/-- The daisy-chain state register (R40). -/
inductive DState where
  | unconfigured
  | awaitingEnable
  | claimingAddress
  | enablingDownstream
  | configured
  deriving DecidableEq, Repr

/-- The four header registers `hdr[0..3]` under their names (R34). -/
structure Header where
  destLow : Byte
  destHigh : Byte
  source : Byte
  type : Byte
  deriving DecidableEq, Repr

/-- The receive buffer's written cells (R35, R70): index and byte, indices strictly rising.
An unlisted cell holds no value of its own; Machine/Operands.lean says what reading one gives. -/
abbrev Memory := List Host.Cell

/-- The decoder's state (10_state.md section 1). -/
structure Decoder where
  /-- `pstate` (R30). -/
  pstate : PState
  /-- `esc`, the escape-pending flag (R32). -/
  esc : Bool
  /-- `hidx`, the header index, 0..4 (R33). -/
  hidx : Nat
  /-- `hdr[0..3]` (R34). -/
  hdr : Header
  /-- `n`, the data count, 0..RX_CAP (R35). -/
  n : Nat
  /-- `data[0..RX_CAP-1]`, the receive buffer (R35). -/
  data : Memory
  /-- `csacc`, the checksum accumulator (R36). -/
  csacc : Byte
  /-- `elapsed`, the message timer, 0..T_MSG+1 (R37). -/
  elapsed : Nat
  /-- The model's own: how many power-on draws came before the present one (R340). -/
  draw : Nat
  deriving DecidableEq, Repr

/-- The daisy-chain FSM's state (10_state.md section 3). -/
structure Daisy where
  /-- `dstate` (R40). -/
  dstate : DState
  /-- `up`, the upstream selector: `none`, link 0 or link 1 (R41). -/
  up : Option Link
  /-- `drive[0]` (R42). -/
  drive0 : Bool
  /-- `drive[1]` (R42). -/
  drive1 : Bool
  deriving DecidableEq, Repr

/-- One call of the bus transport (R181, R314). -/
inductive TransportCall where
  /-- `setTransmitEnabled(v)`. -/
  | txen (v : Bool)
  /-- `sendByte(b)`. -/
  | byte (b : Byte)
  deriving DecidableEq, Repr

/-- What an event hands back (R104, R357). -/
inductive Result where
  /-- The new `pstate` in its code, from `FEED` and `POLL` (R110). -/
  | status (code : Code)
  /-- The message and its checksum, from `READ_MSG` (R45, R152). -/
  | message (m : Message) (checksum : Byte)
  /-- The verdict of `MATCH` (R240). -/
  | matched (v : Bool)
  /-- The transport trace of one `SEND` (R181). -/
  | trace (calls : List TransportCall)
  deriving DecidableEq, Repr

/-- The stops of R300 to R310 that are no refusal: the block has no fault of its own (93_implementation_defined.md). -/
inductive Fault where
  /-- A `SEND` whose transport never completes a `sendByte`: the block is stuck (R354). Raised by `execSend`.
  Safe: the run has no further step, so nothing is claimed of it. -/
  | transportBlocked
  deriving DecidableEq, Repr

/-- The refusals of R310, and the model's own two. -/
inductive Refusal where
  /-- An instruction that has no meaning yet, by its mnemonic. Raised by `exec`'s arms only; safe. -/
  | notModelled (mnemonic : String)
  /-- `BadConfiguration`: the configuration breaks R5. Raised by `step` and every meaning; safe (the spec's own refusal). -/
  | badConfiguration
  /-- `FeedDuringSend`: an event begun while `txen = 1` (R352). Raised by every meaning; safe (the spec's own refusal). -/
  | feedDuringSend
  /-- `SendBodyTooLong` (R181). Raised by `execSend`; safe (the spec's own refusal). -/
  | sendBodyTooLong
  /-- `ReadOutsideReady` (R152). Raised by `execReadMsg`; safe (the spec's own refusal). -/
  | readOutsideReady
  /-- A port item that is no event of R104 and no wire unit of the table. Raised by `step`; safe. -/
  | undecodable (r : DecodeReject)
  deriving DecidableEq, Repr

/-- The machine. -/
structure State where
  /-- The configuration, fixed for the block's lifetime (R2, R84): a parameter of the step, kept here because the
  step takes no other argument. No event writes it. -/
  cfg : Config
  /-- The decoder (10_state.md section 1). -/
  dec : Decoder
  /-- `txen`, the transmit-enable output (R38). -/
  txen : Bool
  /-- The daisy-chain FSM (10_state.md section 3). -/
  daisy : Daisy
  /-- `myAddress` (R44). -/
  myAddress : Byte
  /-- The events the environment has still to give the block, first one first (R80). -/
  pending : List Port
  /-- The results of the events so far, oldest first (R357). -/
  obs : List Result
  /-- How many more `sendByte` calls the transport completes; `none` when it completes every one (R354). -/
  credit : Option Nat
  deriving DecidableEq, Repr

/-- The machine right after power-on reset (R340, 10_state.md section 7), under the default configuration, with no
event pending. `hdr` is the spec's draw, and no buffer cell is written. -/
def State.reset : State where
  cfg := Config.default
  dec :=
    { pstate := .idle, esc := false, hidx := 0
      hdr :=
        { destLow := Config.freeHdr 0 0, destHigh := Config.freeHdr 0 1
          source := Config.freeHdr 0 2, type := Config.freeHdr 0 3 }
      n := 0, data := [], csacc := 0x00, elapsed := 0, draw := 0 }
  txen := false
  daisy := { dstate := .unconfigured, up := none, drive0 := false, drive1 := false }
  myAddress := 0
  pending := []
  obs := []
  credit := none

end Sys2Proof.Machine
end

