-- ==== Sys2Proof/Machine/Flags.lean ====
section
/-!
DEFINITION. The status the block exposes: the codes of `pstate` and `dstate` (R110, R111), the error code (R112, R301),
the claim request (R43), and the classes of decoder state that the rules name (R31, R222).
-/

namespace Sys2Proof.Machine

/-- The 3-bit code of `pstate` (R110). -/
def PState.code : PState → Code
  | .idle => 0
  | .header => 1
  | .active => 2
  | .ready => 3
  | .ignored => 4
  | .aborted => 5
  | .overflowed => 6
  | .timedOut => 7

/-- The 3-bit code of `dstate` (R111). -/
def DState.code : DState → Code
  | .unconfigured => 0
  | .awaitingEnable => 1
  | .claimingAddress => 2
  | .enablingDownstream => 3
  | .configured => 4

/-- The 3-bit error code `err` (R112). Code 5, `UnknownCommand`, is never produced (R302). -/
def PState.err : PState → Code
  | .aborted => 1
  | .overflowed => 2
  | .timedOut => 3
  | .ignored => 4
  | .idle | .header | .active | .ready => 0

/-- The terminal states (R31). -/
def PState.terminal : PState → Bool
  | .ready | .ignored | .aborted | .overflowed | .timedOut => true
  | .idle | .header | .active => false

/-- The states in which a message is in progress and the timer runs (R221, R222). -/
def PState.inFrame : PState → Bool
  | .header | .active => true
  | .idle | .ready | .ignored | .aborted | .overflowed | .timedOut => false

/-- `elapsed > T_MSG` with a message in progress: the condition of the timeout check (R222). -/
def Decoder.late (c : Config) (d : Decoder) : Bool :=
  d.pstate.inFrame && decide (c.tMsg < d.elapsed)

/-- The claim-request output `claim_req` (R43). -/
def State.claimReq (s : State) : Bool := s.daisy.dstate == .claimingAddress

end Sys2Proof.Machine
end

