-- ==== Sys2Proof/Machine/Operands.lean ====
section
/-!
DEFINITION. How the rules reach what they name: a header register by index (R34), a buffer cell by `BufRead` and
`BufWrite` (R71), a link and its drive (R41, R42), and the message that stands in the decoder (R45).
-/

namespace Sys2Proof.Machine

/-- `hdr[i] <- b` (R34, R137). There are four registers: an index of 4 or more names none and writes none. -/
def Header.set (h : Header) (i : Nat) (b : Byte) : Header :=
  match i with
  | 0 => { h with destLow := b }
  | 1 => { h with destHigh := b }
  | 2 => { h with source := b }
  | 3 => { h with type := b }
  | _ => h

/-- `hdr` as a list, in index order (R34). -/
def Header.toList (h : Header) : List Byte := [h.destLow, h.destHigh, h.source, h.type]

/-- The byte last written to cell `i`, if any. -/
def Memory.read? : Memory → Nat → Option Byte
  | [], _ => none
  | (j, b) :: rest, i => if i = j then some b else Memory.read? rest i

/-- Write cell `i`, keeping the indices strictly rising. -/
def Memory.write : Memory → Nat → Byte → Memory
  | [], i, v => [(i, v)]
  | (j, b) :: rest, i, v =>
    if i < j then (i, v) :: (j, b) :: rest
    else if i = j then (i, v) :: rest
    else (j, b) :: Memory.write rest i v

/-- The canonical form: indices strictly rising and all below `cap`. An unlisted cell reads as no value, so no
entry can equal what an unlisted one reads as. -/
abbrev Memory.wf (cap : Nat) (m : Memory) : Prop :=
  m.Pairwise (fun a b => a.1 < b.1) ∧ ∀ a ∈ m, a.1 < cap

/-- `BufRead(i)` (R71). A cell that nothing has written since power-on holds its draw (R340, I1). -/
def Decoder.bufRead (d : Decoder) (i : Nat) : Byte :=
  match Memory.read? d.data i with
  | some b => b
  | none => Config.freeData d.draw i

/-- `BufWrite(i, v)` (R71). There are `RX_CAP` cells: an index of `RX_CAP` or more names none and writes none. -/
def Decoder.bufWrite (c : Config) (d : Decoder) (i : Nat) (v : Byte) : Memory :=
  if i < c.rxCap then Memory.write d.data i v else d.data

/-- `[data[0], ..., data[k-1]]`. -/
def Decoder.cells (d : Decoder) (k : Nat) : List Byte := (List.range k).map d.bufRead

/-- The decoded message (R45): header, and `take(n - 1, data)`. -/
def Decoder.message (d : Decoder) : Message where
  destLow := d.hdr.destLow
  destHigh := d.hdr.destHigh
  source := d.hdr.source
  type := d.hdr.type
  body := d.cells (d.n - 1)

/-- The decoded message's checksum, `data[n - 1]` (R45). -/
def Decoder.messageChecksum (d : Decoder) : Byte := d.bufRead (d.n - 1)

/-- `drive[l]` (R42). -/
def Daisy.drive (d : Daisy) : Link → Bool
  | .link0 => d.drive0
  | .link1 => d.drive1

/-- `drive[l] <- 1` (R267). -/
def Daisy.assertLink (d : Daisy) : Link → Daisy
  | .link0 => { d with drive0 := true }
  | .link1 => { d with drive1 := true }

end Sys2Proof.Machine
end

