-- ==== Sys2Proof/Machine/Ops.lean ====
section
/-!
DEFINITION. The operations the meanings share: the guard of every event (R310), the record of results (R357), the
decoder's rules (R130 to R145) with the one operation that enters a terminal state (R300, R301) and the two that leave
one (R303), the timeout check (R222), the transmission of a byte list (R181), and power-on (R340).
-/

namespace Sys2Proof.Machine

/-- What a meaning answers. -/
abbrev Answer := Host.Outcome State Fault Refusal

/-- The refusals of R310 that hold of every event: a configuration that breaks R5, and an event begun while a `SEND`
is in progress, which is while `txen = 1` (R38, R352). Otherwise the event has its own answer. -/
def State.guarded (s : State) (answer : Answer) : Answer :=
  if s.cfg.valid then
    if s.txen then .refused .feedDuringSend else answer
  else .refused .badConfiguration

/-- Hand a result back: the run's observation grows by it (R357). -/
def State.record (s : State) (r : Result) : State := { s with obs := s.obs ++ [r] }

/-- `enter S ; esc <- 0` for a terminal `S`. The block has no trap: this is how an error is taken (R300, R301), and
nothing but the state is recorded. -/
def Decoder.enterTerminal (d : Decoder) (p : PState) : Decoder := { d with pstate := p, esc := false }

/-- `restart()` (R132): a `START` leaves a terminal state, or drops the frame in progress, for a new `Header`. -/
def Decoder.restart (c : Config) (d : Decoder) : Decoder :=
  { d with pstate := .header, esc := false, hidx := 0, n := 0, csacc := c.csSeed, elapsed := 0 }

/-- The `RESET` of R150: from any state to `Idle`. -/
def Decoder.toIdle (c : Config) (d : Decoder) : Decoder :=
  { d with pstate := .idle, esc := false, hidx := 0, n := 0, csacc := c.csSeed, elapsed := 0 }

/-- `timeout_check()` (R222). -/
def Decoder.timeoutCheck (c : Config) (d : Decoder) : Decoder :=
  if d.late c then d.enterTerminal .timedOut else d

/-- `outside(b)` (R131). -/
def Decoder.outside (c : Config) (b : Byte) (d : Decoder) : Decoder :=
  if b = c.startByte then d.restart c else d

/-- `header_complete()` (R138). -/
def Decoder.headerComplete (c : Config) (d : Decoder) : Decoder :=
  if c.badRange d.hdr.destLow d.hdr.destHigh then d.enterTerminal .ignored
  else { d with pstate := .active }

/-- The three writes of `hdr_store(b)` (R137). -/
def Decoder.hdrWrite (c : Config) (b : Byte) (d : Decoder) : Decoder :=
  { d with hdr := d.hdr.set d.hidx b, csacc := c.fold d.csacc b, hidx := d.hidx + 1 }

/-- `hdr_store(b)` (R137). -/
def Decoder.hdrStore (c : Config) (b : Byte) (d : Decoder) : Decoder :=
  if d.hidx + 1 = 4 then (d.hdrWrite c b).headerComplete c else d.hdrWrite c b

/-- `in_header(b)`: the first of R133 to R137 that applies. -/
def Decoder.inHeader (c : Config) (b : Byte) (d : Decoder) : Decoder :=
  if d.esc then { d with esc := false }.hdrStore c b
  else if b = c.escByte then { d with esc := true }
  else if b = c.startByte then d.restart c
  else if b = c.endByte then d.enterTerminal .ignored
  else d.hdrStore c b

/-- `append(b)` (R140). -/
def Decoder.append (c : Config) (b : Byte) (d : Decoder) : Decoder :=
  if d.n = c.rxCap then d.enterTerminal .overflowed
  else
    { d with
      csacc := if 1 ≤ d.n then c.fold d.csacc (d.bufRead (d.n - 1)) else d.csacc
      data := d.bufWrite c d.n b
      n := d.n + 1 }

/-- `close()` (R143). -/
def Decoder.close (d : Decoder) : Decoder :=
  if d.n = 0 then d.enterTerminal .aborted
  else if d.csacc = d.bufRead (d.n - 1) then d.enterTerminal .ready
  else d.enterTerminal .aborted

/-- `in_active(b)`: the first of R139, R141, R142, R144, R145 that applies. -/
def Decoder.inActive (c : Config) (b : Byte) (d : Decoder) : Decoder :=
  if d.esc then { d with esc := false }.append c b
  else if b = c.escByte then { d with esc := true }
  else if b = c.endByte then d.close
  else d.append c b

/-- The byte's processing, by state (R130). -/
def Decoder.takeByte (c : Config) (b : Byte) (d : Decoder) : Decoder :=
  match d.pstate with
  | .header => d.inHeader c b
  | .active => d.inActive c b
  | .idle | .ready | .ignored | .aborted | .overflowed | .timedOut => d.outside c b

/-- `FEED(b)` on the decoder (R130): the timeout check, then the byte (R307). -/
def Decoder.feed (c : Config) (b : Byte) (d : Decoder) : Decoder :=
  (d.timeoutCheck c).takeByte c b

/-- `TICK` on the decoder (R221). -/
def Decoder.tick (c : Config) (d : Decoder) : Decoder :=
  if d.pstate.inFrame && decide (d.elapsed ≤ c.tMsg) then { d with elapsed := d.elapsed + 1 } else d

/-- The decoder after `POR` (R340): the buffer and the header registers hold a new draw. -/
def Decoder.powerOn (c : Config) (d : Decoder) : Decoder where
  pstate := .idle
  esc := false
  hidx := 0
  hdr :=
    { destLow := Config.freeHdr (d.draw + 1) 0, destHigh := Config.freeHdr (d.draw + 1) 1
      source := Config.freeHdr (d.draw + 1) 2, type := Config.freeHdr (d.draw + 1) 3 }
  n := 0
  data := []
  csacc := c.csSeed
  elapsed := 0
  draw := d.draw + 1

/-- Replace the decoder and hand back its state's code, as `FEED` and `POLL` do (R104, R110). -/
def State.withStatus (s : State) (d : Decoder) : State :=
  { s with dec := d }.record (.status d.pstate.code)

/-- One `FEED(b)`: the new decoder and its result (R130). -/
def State.feedByte (s : State) (b : Byte) : State := s.withStatus (s.dec.feed s.cfg b)

/-- The bytes of a wire unit, each handed over by one `FEED`, in order (R73, R82). -/
def State.feedBytes : State → List Byte → State
  | s, [] => s
  | s, b :: bs => (s.feedByte b).feedBytes bs

/-- `txen <- v` (R181). -/
def State.setTxen (s : State) (v : Bool) : State := { s with txen := v }

/-- `emit(b)`, one `sendByte` (R181): the state after it, or none where the transport never completes it (R354). -/
def State.emit (s : State) (_b : Byte) : Option State :=
  match s.credit with
  | none => some s
  | some 0 => none
  | some (k + 1) => some { s with credit := some k }

/-- `for x in xs: emit(x)` (R181). -/
def State.emitAll : State → List Byte → Option State
  | s, [] => some s
  | s, b :: bs =>
    match s.emit b with
    | some t => t.emitAll bs
    | none => none

/-- The transport trace of a byte list: `[TXEN(1)] ++ [BYTE(x) ...] ++ [TXEN(0)]` (R181). -/
def transportTrace (xs : List Byte) : List TransportCall :=
  [.txen true] ++ xs.map .byte ++ [.txen false]

/-- Transmit a byte list under transmit-enable, and hand back the trace (R181). -/
def State.transmit (s : State) (xs : List Byte) : Answer :=
  match (s.setTxen true).emitAll xs with
  | some t => .next ((t.setTxen false).record (.trace (transportTrace xs)))
  | none => .fault .transportBlocked

/-- The daisy-chain FSM's step (R260 to R268). Without an upstream link there is no downstream one to assert. -/
def Daisy.step (c : Config) (s0 s1 : Bool) (d : Daisy) : Daisy :=
  match d.dstate with
  | .unconfigured => { dstate := .awaitingEnable, up := none, drive0 := false, drive1 := false }
  | .awaitingEnable =>
    if s0 && s1 then { d with up := some c.tieLink, dstate := .claimingAddress }
    else if s0 then { d with up := some .link0, dstate := .claimingAddress }
    else if s1 then { d with up := some .link1, dstate := .claimingAddress }
    else d
  | .claimingAddress => d
  | .enablingDownstream =>
    match d.up with
    | some l => { d.assertLink l.other with dstate := .configured }
    | none => { d with dstate := .configured }
  | .configured => d

end Sys2Proof.Machine
end

