-- ==== Sys2Proof/Machine/DaisyChain.lean ====
section
/-!
DEFINITION. The daisy-chain address-claim FSM: DC_STEP (R260) and DC_GRANT (R265).
-/

namespace Sys2Proof.Machine

/-- `DC_STEP(s0, s1)` (R260 to R268): no result. -/
def execDcStep (s0 s1 : Bool) (s : State) : Answer :=
  s.guarded (.next { s with daisy := s.daisy.step s.cfg s0 s1 })

/-- `DC_GRANT(a)` (R265, R266): accepted only in `ClaimingAddress`, ignored otherwise. R265's pseudocode ignores a grant of
`CTRL_ADDR`, and D20 and D33 a grant of 0, since peripheral addresses are 1..255 (R78). Under the default the two are one.
DESIGN CHOICE (log entry 21): with another `CTRL_ADDR` the model ignores both. -/
def execDcGrant (a : Byte) (s : State) : Answer :=
  s.guarded <|
    if s.daisy.dstate = .claimingAddress ∧ a ≠ s.cfg.ctrlAddr ∧ a ≠ 0 then
      .next { s with myAddress := a, daisy := { s.daisy with dstate := .enablingDownstream } }
    else .next s

end Sys2Proof.Machine
end

