-- ==== Sys2Proof/Machine/DecoderEvents.lean ====
section
/-!
DEFINITION. The decoder's own events: FEED (R130), RESET (R150) and READ_MSG (R152).
-/

namespace Sys2Proof.Machine

/-- `FEED(b)` (R130). -/
def execFeed (b : Byte) (s : State) : Answer := s.guarded (.next (s.feedByte b))

/-- `RESET` (R150): no result. -/
def execReset (s : State) : Answer := s.guarded (.next { s with dec := s.dec.toIdle s.cfg })

/-- `READ_MSG` (R152): refused outside `Ready`, and without any effect but its result in it. -/
def execReadMsg (s : State) : Answer :=
  s.guarded <|
    if s.dec.pstate = .ready then .next (s.record (.message s.dec.message s.dec.messageChecksum))
    else .refused .readOutsideReady

end Sys2Proof.Machine
end

