-- ==== Sys2Proof/Machine/Encoder.lean ====
section
/-!
DEFINITION. The encoder: SEND (R181).
-/

namespace Sys2Proof.Machine

/-- `SEND(m)` (R181): refused when the body is too long, else `encode(m)` goes out under transmit-enable.
The destination range is not checked (R184), and the decoder is left as it was (R182). -/
def execSend (m : Message) (s : State) : Answer :=
  s.guarded <|
    if s.cfg.maxBody < m.body.length then .refused .sendBodyTooLong
    else s.transmit (s.cfg.encodeFrame m)

end Sys2Proof.Machine
end

