-- ==== Sys2Proof/Machine/FrameFields.lean ====
section
/-!
DEFINITION. The meanings of the frame fields (R90): the wire form E(x) of the field (R93) reaches the decoder by its FEEDs, with nothing between. The decoder itself keeps count of the position (R33, R35).
-/

namespace Sys2Proof.Machine

/-- FRAME_DESTLOW: the field at position 0. -/
def execFrameDestLow (x : Byte) (s : State) : Answer := s.guarded (.next (s.feedBytes (s.cfg.escape x)))

/-- FRAME_DESTHIGH: the field at position 1. -/
def execFrameDestHigh (x : Byte) (s : State) : Answer := s.guarded (.next (s.feedBytes (s.cfg.escape x)))

/-- FRAME_SOURCE: the field at position 2. -/
def execFrameSource (x : Byte) (s : State) : Answer := s.guarded (.next (s.feedBytes (s.cfg.escape x)))

/-- FRAME_TYPE: the field at position 3, opaque to the codec (R103). -/
def execFrameType (x : Byte) (s : State) : Answer := s.guarded (.next (s.feedBytes (s.cfg.escape x)))

/-- FRAME_BODY: a body byte, of any value (R99). -/
def execFrameBody (x : Byte) (s : State) : Answer := s.guarded (.next (s.feedBytes (s.cfg.escape x)))

/-- FRAME_CHECKSUM: the checksum byte (R201). -/
def execFrameChecksum (x : Byte) (s : State) : Answer := s.guarded (.next (s.feedBytes (s.cfg.escape x)))

end Sys2Proof.Machine
end

