-- ==== Sys2Proof/Machine/Matcher.lean ====
section
/-!
DEFINITION. The range matcher: MATCH (R240).
-/

namespace Sys2Proof.Machine

/-- `MATCH(lo, hi, a)` (R240): its verdict, and no other effect. -/
def execMatchRange (lo hi a : Byte) (s : State) : Answer :=
  s.guarded (.next (s.record (.matched (s.cfg.matchAddr lo hi a))))

end Sys2Proof.Machine
end

