-- ==== Sys2Proof/Machine/PowerOn.lean ====
section
/-!
DEFINITION. Power-on reset: POR (R340).
-/

namespace Sys2Proof.Machine

/-- `POR` (R340): every piece of the block's state takes the value of 10_state.md section 7. The configuration, the
environment's pending events, its record of results and its transport are not the block's state, and stay. -/
def execPor (s : State) : Answer :=
  s.guarded <| .next
    { s with
      dec := s.dec.powerOn s.cfg
      txen := false
      daisy := { dstate := .unconfigured, up := none, drive0 := false, drive1 := false }
      myAddress := 0 }

end Sys2Proof.Machine
end

