-- ==== Sys2Proof/Machine/Timeout.lean ====
section
/-!
DEFINITION. The message timeout: TICK (R221) and POLL (R223).
-/

namespace Sys2Proof.Machine

/-- `TICK` (R221): no result. -/
def execTick (s : State) : Answer := s.guarded (.next { s with dec := s.dec.tick s.cfg })

/-- `POLL` (R223). -/
def execPoll (s : State) : Answer := s.guarded (.next (s.withStatus (s.dec.timeoutCheck s.cfg)))

end Sys2Proof.Machine
end

