-- ==== Sys2Proof/Machine/WholeFrame.lean ====
section
/-!
DEFINITION. The meaning of a whole frame (R90): its wire bytes reach the decoder by their FEEDs, with nothing between.
-/

namespace Sys2Proof.Machine

/-- FRAME: `START E(destLow) ... E(checksum) END` (R90). -/
def execFrame (m : Message) (s : State) : Answer := s.guarded (.next (s.feedBytes (s.cfg.encodeFrame m)))

end Sys2Proof.Machine
end

