-- ==== Sys2Proof/Machine/WireBytes.lean ====
section
/-!
DEFINITION. The meanings of the wire bytes START, END, ESC and DATA (R92): the byte reaches the decoder by one FEED (R82, R130).
-/

namespace Sys2Proof.Machine

/-- START: the configured start marker arrives (R92, R131, R135, R144). -/
def execStartMark (s : State) : Answer := s.guarded (.next (s.feedBytes [s.cfg.startByte]))

/-- END: the configured end marker arrives (R92, R136, R142). -/
def execEndMark (s : State) : Answer := s.guarded (.next (s.feedBytes [s.cfg.endByte]))

/-- ESC: the configured escape byte arrives (R94, R134, R141). -/
def execEscMark (s : State) : Answer := s.guarded (.next (s.feedBytes [s.cfg.escByte]))

/-- DATA: a data byte arrives (R92, R137, R145, R131). -/
def execData (d : Byte) (s : State) : Answer := s.guarded (.next (s.feedBytes [d]))

end Sys2Proof.Machine
end

