-- ==== Sys2Proof/Machine/WirePairs.lean ====
section
/-!
DEFINITION. The meanings of the escaped pairs (R93, R95): the ESC and the byte after it reach the decoder by two FEEDs, with nothing between.
-/

namespace Sys2Proof.Machine

/-- ESC_START: the escaped literal start marker (R93, R133, R139). -/
def execEscStart (s : State) : Answer := s.guarded (.next (s.feedBytes [s.cfg.escByte, s.cfg.startByte]))

/-- ESC_END: the escaped literal end marker (R93, R133, R139). -/
def execEscEnd (s : State) : Answer := s.guarded (.next (s.feedBytes [s.cfg.escByte, s.cfg.endByte]))

/-- ESC_ESC: the escaped literal escape byte (R93, R94). -/
def execEscEsc (s : State) : Answer := s.guarded (.next (s.feedBytes [s.cfg.escByte, s.cfg.escByte]))

/-- ESC_DATA: the redundant escape, taken as the data byte (R95). -/
def execEscData (d : Byte) (s : State) : Answer := s.guarded (.next (s.feedBytes [s.cfg.escByte, d]))

end Sys2Proof.Machine
end

