-- ==== Sys2Proof/Machine/Dispatch.lean ====
section
/-!
DEFINITION. The meaning of every instruction: one arm per row of spec/opcode_table.json.
-/

namespace Sys2Proof.Machine

def exec (i : Instr) (s : State) : Host.Outcome State Fault Refusal :=
  match i with
  -- wire bytes
  | .startMark => Sys2Proof.Machine.execStartMark s
  | .endMark => Sys2Proof.Machine.execEndMark s
  | .escMark => Sys2Proof.Machine.execEscMark s
  | .data d => Sys2Proof.Machine.execData d s
  -- escaped pairs
  | .escStart => Sys2Proof.Machine.execEscStart s
  | .escEnd => Sys2Proof.Machine.execEscEnd s
  | .escEsc => Sys2Proof.Machine.execEscEsc s
  | .escData d => Sys2Proof.Machine.execEscData d s
  -- frame fields and the whole frame
  | .frameDestLow x => Sys2Proof.Machine.execFrameDestLow x s
  | .frameDestHigh x => Sys2Proof.Machine.execFrameDestHigh x s
  | .frameSource x => Sys2Proof.Machine.execFrameSource x s
  | .frameType x => Sys2Proof.Machine.execFrameType x s
  | .frameBody x => Sys2Proof.Machine.execFrameBody x s
  | .frameChecksum x => Sys2Proof.Machine.execFrameChecksum x s
  | .frame m => Sys2Proof.Machine.execFrame m s
  -- events
  | .feed b => Sys2Proof.Machine.execFeed b s
  | .poll => Sys2Proof.Machine.execPoll s
  | .tick => Sys2Proof.Machine.execTick s
  | .reset => Sys2Proof.Machine.execReset s
  | .readMsg => Sys2Proof.Machine.execReadMsg s
  | .send m => Sys2Proof.Machine.execSend m s
  | .matchRange lo hi a => Sys2Proof.Machine.execMatchRange lo hi a s
  | .dcStep s0 s1 => Sys2Proof.Machine.execDcStep s0 s1 s
  | .dcGrant a => Sys2Proof.Machine.execDcGrant a s
  | .por => Sys2Proof.Machine.execPor s

end Sys2Proof.Machine
end

