-- ==== Sys2Proof/Machine/Step.lean ====
section
/-!
DEFINITION. One step: take the first pending event, decode it and run it (R80).
-/

namespace Sys2Proof.Machine

/-- One step. A configuration that breaks R5 is refused before anything else; with no event pending the block waits
(R342, R357). -/
def step (s : State) : Host.Outcome State Fault Refusal :=
  if s.cfg.valid then
    match s.pending with
    | [] => .next s
    | p :: rest =>
      match decode s.cfg p with
      | .instr i => exec i { s with pending := rest }
      | .reject r => .refused (.undecodable r)
  else .refused .badConfiguration

/-- `s` with a table row's number, as wire bytes, the first of its pending events. -/
def State.withFetchWord (s : State) (nbits w : Nat) : State :=
  { s with pending := .wire (tableBytes nbits w) :: s.pending }

end Sys2Proof.Machine
end

