-- ==== Sys2Proof/Machine/Chain.lean ====
section
/-!
DEFINITION. The composition of nodes into a chain (R270): one block per node, adjacent nodes joined by one wire whose level
is the OR of the drives of both its ends, and the controller driving the first wire (its enable).
Wire `k` lies on the controller's side of node `k` (counted from 0) and wire `k + 1` on its far side.
-/

namespace Sys2Proof.Machine

/-- One node of a chain: its block, and which of its two links is wired toward the controller (R270: arbitrary wiring). -/
structure ChainNode where
  block : State
  nearLink : Link
  deriving DecidableEq, Repr

/-- A chain: the controller's drive of the first wire, and the nodes in physical order. -/
structure Chain where
  enable : Bool
  nodes : List ChainNode
  deriving DecidableEq, Repr

/-- A chain of `N_NODES` nodes (R270): there is at least one, and every node's configuration gives their number. -/
def Chain.composed (c : Chain) : Bool :=
  decide (1 ≤ c.nodes.length) && c.nodes.all fun x => x.block.cfg.nNodes == c.nodes.length

/-- What the environment does to a chain next. -/
inductive ChainMove where
  /-- The controller drives its enable wire. -/
  | setEnable (v : Bool)
  /-- Node `k` takes a `DC_STEP`, sampling its two wires as they stand. -/
  | dcStep (k : Nat)
  /-- Any other event at node `k`. -/
  | event (k : Nat) (i : Instr)
  deriving DecidableEq, Repr

/-- What the node drives onto the wire toward the controller. -/
def ChainNode.driveNear (x : ChainNode) : Bool := x.block.daisy.drive x.nearLink

/-- What the node drives onto the wire away from the controller. -/
def ChainNode.driveFar (x : ChainNode) : Bool := x.block.daisy.drive x.nearLink.other

/-- Drives toward the controller of node `k`, false where there is none. -/
def Chain.nearDrive (c : Chain) (k : Nat) : Bool := (c.nodes[k]?).elim false ChainNode.driveNear

/-- Drives away from the controller of node `k`, false where there is none. -/
def Chain.farDrive (c : Chain) (k : Nat) : Bool := (c.nodes[k]?).elim false ChainNode.driveFar

/-- The level of wire `k` (R270). -/
def Chain.wire (c : Chain) : Nat → Bool
  | 0 => c.enable || c.nearDrive 0
  | k + 1 => c.farDrive k || c.nearDrive (k + 1)

/-- The `DC_STEP` of node `k` with its two links' levels sampled now (R270): the link toward the controller reads wire
`k`, the other reads wire `k + 1`. -/
def Chain.sample (c : Chain) (k : Nat) (x : ChainNode) : Instr :=
  match x.nearLink with
  | .link0 => .dcStep (c.wire k) (c.wire (k + 1))
  | .link1 => .dcStep (c.wire (k + 1)) (c.wire k)

/-- Run one event at node `k`; none where there is no such node or its block does not go on.
DESIGN CHOICE (log entry 25): the stop of one node's block, a stuck `SEND` (R354) or a refusal, ends the run of the whole chain. -/
def Chain.runAt (c : Chain) (k : Nat) (i : Instr) : Option Chain :=
  match c.nodes[k]? with
  | none => none
  | some x =>
    match exec i x.block with
    | .next t => some { c with nodes := c.nodes.set k { x with block := t } }
    | .fault _ => none
    | .refused _ => none

/-- A `DC_STEP` whose samples the wires do not give is no move of a chain. -/
def Instr.isDcStep : Instr → Bool
  | .dcStep _ _ => true
  | _ => false

/-- What a move does to the nodes and the enable. -/
def Chain.act (c : Chain) : ChainMove → Option Chain
  | .setEnable v => some { c with enable := v }
  | .dcStep k =>
    match c.nodes[k]? with
    | none => none
    | some x => c.runAt k (c.sample k x)
  | .event k i => if Instr.isDcStep i then none else c.runAt k i

/-- One move of a chain; none where the nodes are not the `N_NODES` of their configuration. -/
def Chain.move (c : Chain) (m : ChainMove) : Option Chain :=
  if c.composed then c.act m else none

/-- The moves of a list, in order. -/
def Chain.run : Chain → List ChainMove → Option Chain
  | c, [] => some c
  | c, m :: ms =>
    match c.move m with
    | some d => d.run ms
    | none => none

/-- The daisy-chain state of node `k`. -/
def Chain.dstate (c : Chain) (k : Nat) : Option DState := (c.nodes[k]?).map (·.block.daisy.dstate)

/-- The address of node `k`. -/
def Chain.address (c : Chain) (k : Nat) : Option Byte := (c.nodes[k]?).map (·.block.myAddress)

/-- A node as `POR` leaves it (R340). -/
def ChainNode.fresh (x : ChainNode) : Bool :=
  x.block.daisy == { dstate := .unconfigured, up := none, drive0 := false, drive1 := false } &&
    x.block.myAddress == 0 && !x.block.txen

/-- The address an event grants, if it is a grant. -/
def grantOf : Instr → Option Byte
  | .dcGrant a => some a
  | _ => none

/-- The address a move grants, if it is a grant. -/
def ChainMove.grant? : ChainMove → Option Byte
  | .event _ i => grantOf i
  | .setEnable _ | .dcStep _ => none

/-- A move that powers a node on again. -/
def ChainMove.isPor : ChainMove → Bool
  | .event _ .por => true
  | _ => false

end Sys2Proof.Machine
end

