-- ==== Sys2Proof/Safety.lean ====
section
/-!
DEFINITION. The words the claims use: a run over a list of events and its observation (R357), the invariant of the
block's state (R32 to R38, R41, R42, R44, R269), when two states differ only in bytes nothing can read (R340, R72), and
the duties the environment owes the block (R272, R343, R350 to R353).
-/

namespace Sys2Proof.Machine

/-- No refusal of R310 holds of every event here: the configuration meets R5 and no `SEND` is in progress. -/
abbrev State.Accepts (s : State) : Prop := s.cfg.valid = true ∧ s.txen = false

/-- The events of a list, in order, stopping at the first that does not go on. -/
def runEvents : List Instr → State → Answer
  | [], s => .next s
  | i :: is, s =>
    match exec i s with
    | .next t => runEvents is t
    | .fault f => .fault f
    | .refused r => .refused r

/-- The observation of a run from a state with no result yet: the results and the last state; none for a run that is
refused or stuck (R357). -/
def observe (is : List Instr) (s : State) : Option (List Result × State) :=
  match runEvents is { s with obs := [] } with
  | .next t => some (t.obs, t)
  | .fault _ => none
  | .refused _ => none

/-- `take(hidx, hdr) ++ take(n - 1, data)`: the bytes `csacc` covers (R36). -/
def Decoder.covered (d : Decoder) : List Byte := d.hdr.toList.take d.hidx ++ d.cells (d.n - 1)

/-- The invariant of the decoder. Each clause names its rule. -/
structure Decoder.Inv (c : Config) (d : Decoder) : Prop where
  /-- `esc` is 0 outside `Header` and `Active` (R32). -/
  esc_inFrame : d.esc = true → d.pstate.inFrame = true
  /-- `hidx` stays in 0..4 (R33). -/
  hidx_le : d.hidx ≤ 4
  /-- `hidx < 4` in `Header` (R33), and no data byte is stored yet (R132). -/
  header_hidx : d.pstate = .header → d.hidx < 4 ∧ d.n = 0
  /-- `hidx = 4` in `Active` and `Ready` (R33). -/
  active_hidx : d.pstate = .active ∨ d.pstate = .ready → d.hidx = 4
  /-- The range has been checked in `Active` and `Ready` (R138). -/
  active_range : d.pstate = .active ∨ d.pstate = .ready → c.badRange d.hdr.destLow d.hdr.destHigh = false
  /-- `n` stays in 0..RX_CAP (R35). -/
  n_le : d.n ≤ c.rxCap
  /-- Every cell below `n` has been written (R35, R71). -/
  cells_written : ∀ i < d.n, (Memory.read? d.data i).isSome = true
  /-- The buffer keeps its canonical form, with no cell beyond its last (R71). -/
  data_wf : Memory.wf c.rxCap d.data
  /-- `csacc` covers every stored byte but the newest data byte (R36). -/
  csacc_covers : d.pstate = .header ∨ d.pstate = .active ∨ d.pstate = .ready → d.csacc = c.checksum d.covered
  /-- `Ready` holds a verified message: at least the checksum byte, and it agrees (R143, R153). -/
  ready_verified : d.pstate = .ready → 1 ≤ d.n ∧ d.csacc = d.bufRead (d.n - 1)
  /-- `elapsed` stays in 0..T_MSG+1 (R37). -/
  elapsed_le : d.elapsed ≤ c.tMsg + 1

/-- The invariant of the daisy-chain FSM and `myAddress`. -/
structure Daisy.Inv (c : Config) (d : Daisy) (addr : Byte) : Prop where
  /-- `up` is resolved exactly from `ClaimingAddress` on (R41, R262). -/
  up_resolved : d.up = none ↔ (d.dstate = .unconfigured ∨ d.dstate = .awaitingEnable)
  /-- No link is driven before `Configured` (R269). -/
  drive_before : d.dstate ≠ .configured → d.drive0 = false ∧ d.drive1 = false
  /-- In `Configured` the downstream link is driven and the upstream one is not (R268, R269). -/
  drive_after : ∀ l, d.dstate = .configured → d.up = some l → d.drive l = false ∧ d.drive l.other = true
  /-- `myAddress` is 0 before assignment (R44). -/
  addr_before : d.dstate = .unconfigured ∨ d.dstate = .awaitingEnable ∨ d.dstate = .claimingAddress → addr = 0
  /-- The assigned address is a peripheral's: not the controller's (R265) and not 0 (R78, D33). -/
  addr_after : d.dstate = .enablingDownstream ∨ d.dstate = .configured → addr ≠ c.ctrlAddr ∧ addr ≠ 0

/-- The invariant of the block: what holds at `POR` and what every event keeps. -/
structure State.Inv (s : State) : Prop where
  cfg_valid : s.cfg.valid = true
  /-- Between events `txen` is 0 (R38). -/
  txen_off : s.txen = false
  decoder : s.dec.Inv s.cfg
  daisy : s.daisy.Inv s.cfg s.myAddress

/-- The two decoders agree on all that a rule can read: everything but header registers at `hidx` or above, buffer
cells at `n` or above, and the power-on draw (R35, R72, R340). -/
structure Decoder.SameVisible (d e : Decoder) : Prop where
  pstate : d.pstate = e.pstate
  esc : d.esc = e.esc
  hidx : d.hidx = e.hidx
  hdr : d.hdr.toList.take d.hidx = e.hdr.toList.take e.hidx
  n : d.n = e.n
  cells : d.cells d.n = e.cells e.n
  csacc : d.csacc = e.csacc
  elapsed : d.elapsed = e.elapsed

/-- The two states agree on all but unreadable bytes. -/
structure State.SameVisible (s t : State) : Prop where
  cfg : s.cfg = t.cfg
  dec : s.dec.SameVisible t.dec
  txen : s.txen = t.txen
  daisy : s.daisy = t.daisy
  myAddress : s.myAddress = t.myAddress
  pending : s.pending = t.pending
  obs : s.obs = t.obs
  credit : s.credit = t.credit

/-- The two answers are the same stop, or go on to states that agree on all but unreadable bytes. -/
def Answer.SameVisible : Answer → Answer → Prop
  | .next s, .next t => s.SameVisible t
  | .fault f, .fault g => f = g
  | .refused r, .refused q => r = q
  | _, _ => False

/-- The wire bytes an instruction hands to the decoder, in order (R73, R92, R93): none for an event that is no `FEED`. -/
def fedBytes (c : Config) : Instr → List Byte
  | .startMark => [c.startByte]
  | .endMark => [c.endByte]
  | .escMark => [c.escByte]
  | .data d => [d]
  | .escStart => [c.escByte, c.startByte]
  | .escEnd => [c.escByte, c.endByte]
  | .escEsc => [c.escByte, c.escByte]
  | .escData d => [c.escByte, d]
  | .frameDestLow x | .frameDestHigh x | .frameSource x | .frameType x | .frameBody x | .frameChecksum x => c.escape x
  | .frame m => c.encodeFrame m
  | .feed b => [b]
  | .poll | .tick | .reset | .readMsg | .send _ | .matchRange _ _ _ | .dcStep _ _ | .dcGrant _ | .por => []

/-- The one unescaped byte a wire unit stands for inside a frame (R90, R93, R95): none for a marker, a bare `ESC`, a whole
frame or an event. -/
def carriedByte (c : Config) : Instr → Option Byte
  | .data d => some d
  | .escStart => some c.startByte
  | .escEnd => some c.endByte
  | .escEsc => some c.escByte
  | .escData d => some d
  | .frameDestLow x | .frameDestHigh x | .frameSource x | .frameType x | .frameBody x | .frameChecksum x => some x
  | .startMark | .endMark | .escMark | .frame _ | .feed _ | .poll | .tick | .reset | .readMsg => none
  | .send _ | .matchRange _ _ _ | .dcStep _ _ | .dcGrant _ | .por => none

/-- The events of the daisy-chain FSM (R273). -/
def isDaisyEvent : Instr → Bool
  | .dcStep _ _ => true
  | .dcGrant _ => true
  | _ => false

/-- The byte an event feeds, if it is a `FEED`. -/
def fedByte : Instr → Option Byte
  | .feed b => some b
  | _ => none

/-- An event that is a `FEED` or a `TICK`. -/
def isFeedOrTick : Instr → Bool
  | .feed _ => true
  | .tick => true
  | _ => false

/-- The states from which a frame's leading `START` begins that frame (R183): `Idle`, a terminal state, or `Header`
with no escape pending. -/
def Decoder.startsFrame (d : Decoder) : Bool :=
  match d.pstate with
  | .idle | .ready | .ignored | .aborted | .overflowed | .timedOut => true
  | .header => !d.esc
  | .active => false

/-- The events a wire unit stands for: one `FEED` per wire byte. Any other event is itself. The duties are read over these,
so that a unit keeps a duty exactly where its bytes do. -/
def plainEvents (c : Config) (i : Instr) : List Instr :=
  match fedBytes c i with
  | [] => [i]
  | bs => bs.map .feed

/-- One event of a run, with the states before and after it. -/
structure Happening where
  before : State
  event : Instr
  after : State
  deriving DecidableEq, Repr

/-- What happens along a list of events, up to the first that does not go on. -/
def happenings : State → List Instr → List Happening
  | _, [] => []
  | s, i :: is =>
    match exec i s with
    | .next t => ⟨s, i, t⟩ :: happenings t is
    | .fault _ => []
    | .refused _ => []

/-- What happens along a run, wire byte by wire byte. -/
def history (s : State) (is : List Instr) : List Happening := happenings s (is.flatMap (plainEvents s.cfg))

/-- The duty of R350: a message standing in `Ready` is left by `RESET` after a `READ_MSG`, and no `START` is fed before.
`wasRead` says whether the message standing in `Ready` has been read. A power-on leaves it too, which is no dispatch. -/
def consumesReady : Bool → List Happening → Bool
  | _, [] => true
  | wasRead, h :: hs =>
    (h.before.dec.pstate != .ready ||
        match h.event with
        | .feed b => b != h.before.cfg.startByte
        | .reset => wasRead
        | _ => true) &&
      consumesReady (h.after.dec.pstate == .ready && (wasRead || h.event == .readMsg)) hs

/-- The duty of R351: after a `FEED` or `POLL` that answers an error, `RESET` comes before the next `FEED` or `POLL`. -/
def resetsAfterError (hs : List Happening) : Bool :=
  hs.all fun h => h.before.dec.pstate.err == 0 || ((fedByte h.event).isNone && h.event != .poll)

/-- The duty of R353: every control-loop iteration polls or resets. A run is given iteration by iteration. -/
def pollsEveryIteration (iterations : List (List Instr)) : Bool :=
  iterations.all fun is => is.any fun i => i == .poll || i == .reset

/-- The duty of R272 and R343 item 4: every grant is greater than every earlier one, and none is 0. -/
abbrev grantsIncrease (grants : List Byte) : Prop := (0 :: grants).Pairwise (· < ·)

/-- The duty of R343 item 3: every control-loop iteration begun before `Configured` has one `DC_STEP`. -/
def stepsUntilConfigured : State → List (List Instr) → Bool
  | _, [] => true
  | s, is :: rest =>
    (s.daisy.dstate == .configured || is.countP Instr.isDcStep == 1) &&
      match runEvents is s with
      | .next t => stepsUntilConfigured t rest
      | .fault _ => true
      | .refused _ => true

/-- The duty of R343 item 4: a grant comes only while `claim_req = 1`. -/
def grantsWhileClaiming (hs : List Happening) : Bool :=
  hs.all fun h => (grantOf h.event).isNone || h.before.claimReq

/-- The boot duties of R343, in its order: a configuration that meets R5; `POR`; one `DC_STEP` an iteration until
`Configured`; and grants that come while the node claims and rise above `granted`, the addresses granted before (to the
nodes nearer the controller). A run is given as `POR` alone and then iteration by iteration. -/
def bootsInOrder (s : State) (granted : List Byte) : List (List Instr) → Bool
  | [.por] :: iterations =>
    s.cfg.valid &&
      match exec .por s with
      | .next t =>
        stepsUntilConfigured t iterations && grantsWhileClaiming (history t iterations.flatten) &&
          decide (grantsIncrease (granted ++ iterations.flatten.filterMap grantOf))
      | .fault _ => false
      | .refused _ => false
  | _ => false

/-- A boot that keeps R343 to its end: the claim has been answered and the node is `Configured`. -/
def bootCompletes (s : State) (granted : List Byte) (run : List (List Instr)) : Bool :=
  bootsInOrder s granted run &&
    match runEvents run.flatten s with
    | .next t => t.daisy.dstate == .configured
    | .fault _ => false
    | .refused _ => false

/-- The duty of R343 item 4 on the first node: the controller asserts its upstream link.
DESIGN CHOICE (log entry 24): the spec does not say when or for how long, so any assertion counts, at the start or at any
move, be it withdrawn before the node samples it or made before the node's `POR`. -/
def controllerEnables (c : Chain) (ms : List ChainMove) : Bool := c.enable || ms.contains (.setEnable true)

end Sys2Proof.Machine
end

