-- ==== Sys2Proof/Certificates/Slice0/Obligations.lean ====
section
/-!
DEFINITION. The statements for the provers, file by file of spec/.
Where a statement rests on a decision the spec marks as its own, its docstring names that decision (D<n>).
-/

open Sys2Proof Sys2Proof.Machine

-- ---- the port: 30_encoding.md sections 1 to 6, 20_memory.md section 5 ----

/-- Decoding the port item of a well-formed instruction gives the instruction back, for every row of the table and
every operand. The port items of the events are the model's choice (log entry 1). -/
def Obligations.DecodeOfEncodeIsTheInstruction : Prop :=
  ∀ (c : Config) (i : Instr), c.valid = true → WellFormed c i = true → decode c (encode c i) = .instr i

/-- Each port item that decodes is the encoding of the one instruction it decodes to: no two items share a meaning and
no redundant form of a frame or a field is taken for a canonical one. The model's choice: that a row takes canonical escapes
only and every other item is refused (log entry 16), and the form of an event's port item (log entry 1). -/
def Obligations.EncodeOfDecodeIsThePortItem : Prop :=
  ∀ (c : Config) (p : Port) (i : Instr), decode c p = .instr i → encode c i = p

/-- Words written out from the table's byte classes (R92) and pairs (R93, R95) decode to the rows they stand for.
The model's choice: the most significant byte of a 16-bit row comes first (log entry 2), and END 0x0A and ESC 0x5C are presumed
codes (log entry 18). -/
def Obligations.TableWordsDecodeToTheirRows : Prop :=
  decodeTableWord 8 0x3E = some .startMark ∧ decodeTableWord 8 0x0A = some .endMark ∧
  decodeTableWord 8 0x5C = some .escMark ∧ decodeTableWord 8 0x41 = some (.data 0x41) ∧
  decodeTableWord 16 0x5C3E = some .escStart ∧ decodeTableWord 16 0x5C0A = some .escEnd ∧
  decodeTableWord 16 0x5C5C = some .escEsc ∧ decodeTableWord 16 0x5C41 = some (.escData 0x41)

/-- A step takes the first pending port item off the list, and is `exec` of the instruction it decodes to: events are
totally ordered and atomic (R80, R81; D27). That the program is a list of port items in the state, the first taken off at each
step, is the model's choice (log entry 15). -/
def Obligations.StepRunsTheDecodedEvent : Prop :=
  ∀ (s : State) (p : Port) (rest : List Port) (i : Instr),
    s.cfg.valid = true → s.pending = p :: rest → decode s.cfg p = .instr i →
    step s = exec i { s with pending := rest }

/-- With no event pending the block waits and nothing changes: it does no work between events (R342, R357).
That the events to come are a list in the state is the model's choice (log entry 15). -/
def Obligations.StepWithoutEventChangesNothing : Prop :=
  ∀ s : State, s.cfg.valid = true → s.pending = [] → step s = .next s

/-- Every wire unit (byte, pair, field, frame, `FEED`) completes, and has the effect of one `FEED` per wire byte, in
wire order, with nothing between. That a unit runs as one event is the model's choice (log entry 3). -/
def Obligations.WireUnitsCompleteAsTheirFeeds : Prop :=
  ∀ (i : Instr) (s : State), s.Accepts → fedBytes s.cfg i ≠ [] →
    ∃ t, exec i s = .next t ∧ runEvents ((fedBytes s.cfg i).map .feed) s = .next t

-- ---- the decoder: 40_decode.md ----

/-- What one `FEED` can change: it completes in every state the block accepts events in; only the decoder and the list of
results change; the result is the new state's code; only the header register at `hidx` and the buffer cell at `n` can be
stored to, and each only as its counter advances. -/
def Obligations.FeedChangesOnlyTheDecoder : Prop :=
  ∀ (s : State) (b : Byte), s.Accepts →
    ∃ d : Decoder,
      exec (.feed b) s = .next { s with dec := d, obs := s.obs ++ [.status d.pstate.code] } ∧
      d.draw = s.dec.draw ∧
      (d.hdr = s.dec.hdr ∨ (d.hidx = s.dec.hidx + 1 ∧ d.hdr = s.dec.hdr.set s.dec.hidx b)) ∧
      ∀ a, (d.n = s.dec.n + 1 → a ≠ s.dec.n) → d.bufRead a = s.dec.bufRead a

/-- Outside a frame a `START` begins one and every other byte, `ESC` among them, changes nothing (R131, R132; D9, D12). -/
def Obligations.FeedOutsideAFrame : Prop :=
  ∀ (s : State) (b : Byte), s.Accepts → s.dec.pstate.inFrame = false →
    exec (.feed b) s = .next
      (if b = s.cfg.startByte then
        { s with
          dec :=
            { s.dec with pstate := .header, esc := false, hidx := 0, n := 0, csacc := s.cfg.csSeed, elapsed := 0 }
          obs := s.obs ++ [.status 1] }
      else { s with obs := s.obs ++ [.status s.dec.pstate.code] })

/-- In `Header` a literal byte (one after an `ESC`, or one that is not reserved) is stored as the next header byte; the
fourth one is followed by the range check, in which `destHigh = WILDCARD` admits every `destLow` (R133, R137, R138; D4, D8,
D11). -/
def Obligations.HeaderStoresALiteralByte : Prop :=
  ∀ (s : State) (b : Byte) (h : Header), s.Accepts → s.dec.pstate = .header → s.dec.elapsed ≤ s.cfg.tMsg →
    s.dec.hidx < 4 → (s.dec.esc = true ∨ s.cfg.reserved b = false) → h = s.dec.hdr.set s.dec.hidx b →
    exec (.feed b) s = .next
      (s.withStatus
        { s.dec with
          esc := false, hdr := h, csacc := s.cfg.fold s.dec.csacc b, hidx := s.dec.hidx + 1
          pstate :=
            if s.dec.hidx < 3 then .header
            else if h.destHigh ≠ s.cfg.wildcard ∧ h.destHigh < h.destLow then .ignored
            else .active })

/-- In `Header` an unescaped `ESC` is pending and not stored (R134; D8). -/
def Obligations.HeaderEscapeIsPending : Prop :=
  ∀ s : State, s.Accepts → s.dec.pstate = .header → s.dec.esc = false → s.dec.elapsed ≤ s.cfg.tMsg →
    exec (.feed s.cfg.escByte) s = .next (s.withStatus { s.dec with esc := true })

/-- In `Header` an unescaped `START` restarts the decoder and re-arms the timer, whether or not the bound has passed (R135). -/
def Obligations.HeaderStartRestarts : Prop :=
  ∀ s : State, s.Accepts → s.dec.pstate = .header → s.dec.esc = false →
    exec (.feed s.cfg.startByte) s = .next
      (s.withStatus { s.dec with pstate := .header, hidx := 0, n := 0, csacc := s.cfg.csSeed, elapsed := 0 })

/-- In `Header` an unescaped `END` cuts the header short: `Ignored` (R136; D8). -/
def Obligations.HeaderEndIsIgnored : Prop :=
  ∀ s : State, s.Accepts → s.dec.pstate = .header → s.dec.esc = false → s.dec.elapsed ≤ s.cfg.tMsg →
    exec (.feed s.cfg.endByte) s = .next (s.withStatus { s.dec with pstate := .ignored })

/-- In `Active` a byte after an `ESC`, and every unescaped byte but `ESC` and `END`, is appended, whatever its value:
`esc` clears and `append(b)` follows (R139; an unescaped `START` R144, any other byte R145). -/
def Obligations.ActiveByteIsAppended : Prop :=
  ∀ (s : State) (b : Byte), s.Accepts → s.dec.pstate = .active → s.dec.elapsed ≤ s.cfg.tMsg →
    (s.dec.esc = true ∨ (b ≠ s.cfg.escByte ∧ b ≠ s.cfg.endByte)) →
    exec (.feed b) s = .next (s.withStatus (Decoder.append s.cfg b { s.dec with esc := false }))

/-- What appending does: below `RX_CAP` the byte goes to cell `n`, which reads back, every other cell reads as before, and
the byte before it is folded into `csacc`; at `RX_CAP` the decoder overflows and stores nothing (R140; D5, D6, D10). -/
def Obligations.AppendStoresOrOverflows : Prop :=
  ∀ (s : State) (b : Byte), s.Accepts → s.dec.pstate = .active → s.dec.elapsed ≤ s.cfg.tMsg → s.dec.n ≤ s.cfg.rxCap →
    (s.dec.esc = true ∨ (b ≠ s.cfg.escByte ∧ b ≠ s.cfg.endByte)) →
    (s.dec.n = s.cfg.maxBody + 1 →
      exec (.feed b) s = .next (s.withStatus { s.dec with pstate := .overflowed, esc := false })) ∧
    (s.dec.n < s.cfg.maxBody + 1 →
      ∃ buf : Memory,
        exec (.feed b) s = .next
          (s.withStatus
            { s.dec with
              esc := false, n := s.dec.n + 1, data := buf
              csacc := if s.dec.n = 0 then s.dec.csacc else s.cfg.fold s.dec.csacc (s.dec.bufRead (s.dec.n - 1)) }) ∧
        ∀ a, Decoder.bufRead { s.dec with data := buf } a = if a = s.dec.n then b else s.dec.bufRead a)

/-- In `Active` an unescaped `ESC` is pending and not stored (R141). -/
def Obligations.ActiveEscapeIsPending : Prop :=
  ∀ s : State, s.Accepts → s.dec.pstate = .active → s.dec.esc = false → s.dec.elapsed ≤ s.cfg.tMsg →
    exec (.feed s.cfg.escByte) s = .next (s.withStatus { s.dec with esc := true })

/-- In `Active` an unescaped `END` closes the frame: `Ready` when there is a data byte and the last one equals the checksum
of the header and the bytes before it, `Aborted` otherwise (R142, R143, R204). That no data byte gives `Aborted`, and that the
last one is the checksum, is the spec's decision D10. -/
def Obligations.EndVerifiesTheChecksum : Prop :=
  ∀ s : State, s.Inv → s.dec.pstate = .active → s.dec.esc = false → s.dec.elapsed ≤ s.cfg.tMsg →
    exec (.feed s.cfg.endByte) s = .next
      (s.withStatus
        { s.dec with
          pstate :=
            if s.dec.n ≠ 0 ∧
                s.cfg.checksum (s.dec.hdr.toList ++ s.dec.cells (s.dec.n - 1)) = s.dec.bufRead (s.dec.n - 1) then .ready
            else .aborted })

/-- Whatever the instruction, `Ready` is entered only from `Active`, at an unescaped `END` among the bytes it feeds that comes
in time, and with the checksum verified (R153). -/
def Obligations.ReadyOnlyWithTheChecksumVerified : Prop :=
  ∀ (i : Instr) (s t : State), s.Inv → s.dec.pstate ≠ .ready → exec i s = .next t → t.dec.pstate = .ready →
    t.dec.messageChecksum = s.cfg.checksum t.dec.message.fields ∧
    ∃ before after : List Byte,
      fedBytes s.cfg i = before ++ [s.cfg.endByte] ++ after ∧ (s.feedBytes before).dec.pstate = .active ∧
      (s.feedBytes before).dec.esc = false ∧ (s.feedBytes before).dec.elapsed ≤ s.cfg.tMsg

/-- No instruction takes the decoder out of a terminal state but `RESET`, `POR`, and a `START` byte on the wire: errors do
not nest, and ticks and polls leave a terminal state alone (R31, R151, R304). -/
def Obligations.TerminalStateIsLeftOnlyByStartOrReset : Prop :=
  ∀ (i : Instr) (s t : State), s.dec.pstate.terminal = true → exec i s = .next t →
    i ≠ .reset → i ≠ .por → s.cfg.startByte ∉ fedBytes s.cfg i → t.dec.pstate = s.dec.pstate

/-- `RESET` takes the decoder to `Idle` from any state, keeps `hdr` and `data`, and changes nothing else (R150, R341; D25). -/
def Obligations.ResetClearsOnlyTheDecoder : Prop :=
  ∀ s : State, s.Accepts →
    exec .reset s = .next
      { s with
        dec := { s.dec with pstate := .idle, esc := false, hidx := 0, n := 0, csacc := s.cfg.csSeed, elapsed := 0 } }

/-- `READ_MSG` in `Ready` hands back the decoded message and its checksum and changes nothing else (R45, R152). -/
def Obligations.ReadMsgReturnsTheMessage : Prop :=
  ∀ s : State, s.Accepts → s.dec.pstate = .ready →
    exec .readMsg s = .next
      { s with
        obs := s.obs ++
          [.message
            { destLow := s.dec.hdr.destLow, destHigh := s.dec.hdr.destHigh, source := s.dec.hdr.source
              type := s.dec.hdr.type, body := (List.range (s.dec.n - 1)).map s.dec.bufRead }
            (s.dec.bufRead (s.dec.n - 1))] }

/-- A wire unit that stands for one byte `x` (DATA, a pair, a frame field) stores `x` in the header register at `hidx` when
the decoder is in `Header`: the field at position 0 becomes destLow, and so on, and type at position 3 is followed by the range
check (R90, R94, R95, R138; D8, D11). The model's choice: a pair or a field runs as one event (log entry 3), and a field goes
where the decoder's own count puts it, whatever its name (log entry 4). -/
def Obligations.UnitInHeaderStoresItsByte : Prop :=
  ∀ (i : Instr) (s : State) (x : Byte), s.Accepts → WellFormed s.cfg i = true → carriedByte s.cfg i = some x →
    s.dec.pstate = .header → s.dec.esc = false → s.dec.elapsed ≤ s.cfg.tMsg → s.dec.hidx < 4 →
    ∃ results h, h = s.dec.hdr.set s.dec.hidx x ∧
      exec i s = .next
        { s with
          dec :=
            { s.dec with
              hdr := h, csacc := s.cfg.fold s.dec.csacc x, hidx := s.dec.hidx + 1
              pstate :=
                if s.dec.hidx < 3 then .header
                else if h.destHigh ≠ s.cfg.wildcard ∧ h.destHigh < h.destLow then .ignored
                else .active }
          obs := s.obs ++ results }

/-- The same unit in `Active`, below the capacity, appends `x`: cell `n` reads as `x` and every other cell as before
(R90, R94, R95). The model's choice: a pair or a field runs as one event (log entry 3), and a header field that arrives in
`Active` is data, since the decoder's own count places it (log entry 4). -/
def Obligations.UnitInActiveAppendsItsByte : Prop :=
  ∀ (i : Instr) (s : State) (x : Byte), s.Accepts → WellFormed s.cfg i = true → carriedByte s.cfg i = some x →
    s.dec.pstate = .active → s.dec.esc = false → s.dec.elapsed ≤ s.cfg.tMsg → s.dec.n < s.cfg.rxCap →
    ∃ results buf,
      exec i s = .next
        { s with
          dec :=
            { s.dec with
              n := s.dec.n + 1, data := buf
              csacc := if s.dec.n = 0 then s.dec.csacc else s.cfg.fold s.dec.csacc (s.dec.bufRead (s.dec.n - 1)) }
          obs := s.obs ++ results } ∧
      ∀ a, Decoder.bufRead { s.dec with data := buf } a = if a = s.dec.n then x else s.dec.bufRead a

/-- A `START` that begins a frame, be it one that comes after the bound has passed in the middle of a frame (R222), leaves
nothing of what came before that any rule can read, and so does `RESET`: no byte of one frame reaches the checksum of the next
(R203). -/
def Obligations.StartAndResetForgetTheFrameBefore : Prop :=
  ∀ s u : State, s.Accepts → u.cfg = s.cfg → u.txen = false →
    ((s.dec.startsFrame = true ∨ s.dec.late s.cfg = true) → (u.dec.startsFrame = true ∨ u.dec.late s.cfg = true) →
      ∃ s' u', exec (.feed s.cfg.startByte) s = .next s' ∧ exec (.feed s.cfg.startByte) u = .next u' ∧
        s'.dec.SameVisible u'.dec ∧ s'.dec.csacc = s.cfg.csSeed) ∧
    ∃ s' u', exec .reset s = .next s' ∧ exec .reset u = .next u' ∧
      s'.dec.SameVisible u'.dec ∧ s'.dec.csacc = s.cfg.csSeed

-- ---- encoder against decoder: 41_encode.md ----

/-- `SEND(m)` with a body that fits, over a transport that completes its bytes, hands back the trace of R181 and leaves the
decoder, the daisy chain and `myAddress` alone (R180, R181, R182; D15, D16). Only the environment's own count of the
transport's remaining bytes moves (log entry 6). -/
def Obligations.SendEmitsTheFrameAndChangesNothing : Prop :=
  ∀ (s : State) (m : Message) (cs : Byte) (bytes : List Byte), s.Accepts → m.body.length ≤ s.cfg.maxBody →
    cs = ([m.destLow, m.destHigh, m.source, m.type] ++ m.body).foldl s.cfg.fold s.cfg.csSeed →
    bytes =
      [s.cfg.startByte] ++
        ([m.destLow, m.destHigh, m.source, m.type] ++ m.body ++ [cs]).flatMap
          (fun x => if x = s.cfg.startByte ∨ x = s.cfg.endByte ∨ x = s.cfg.escByte then [s.cfg.escByte, x] else [x]) ++
        [s.cfg.endByte] →
    (∀ k, s.credit = some k → bytes.length ≤ k) →
    exec (.send m) s = .next
      { s with
        obs := s.obs ++ [.trace ([.txen true] ++ bytes.map .byte ++ [.txen false])]
        credit := s.credit.map (· - bytes.length) }

/-- The round trip of R183: feed a frame's bytes, with at most `T_MSG` ticks between its `START` and its `END`, to a decoder
that can begin a frame; the last `FEED` answers `Ready` and `READ_MSG` gives the message back with its checksum. -/
def Obligations.FrameBytesRoundTrip : Prop :=
  ∀ (s : State) (m : Message) (events : List Instr), s.Accepts → s.dec.startsFrame = true →
    m.body.length ≤ s.cfg.maxBody → (m.destHigh = s.cfg.wildcard ∨ m.destLow ≤ m.destHigh) →
    events.all isFeedOrTick = true → events.filterMap fedByte = s.cfg.encodeFrame m →
    events.head? = some (.feed s.cfg.startByte) → events.getLast? = some (.feed s.cfg.endByte) →
    events.count .tick ≤ s.cfg.tMsg →
    ∃ t, runEvents events s = .next t ∧ t.obs.getLast? = some (.status 3) ∧
      exec .readMsg t = .next (t.record (.message m (s.cfg.checksum m.fields)))

/-- A whole frame with a valid range, received as one unit, is decoded to `Ready` whatever its destination (R183, R244).
That a whole frame runs as one event is the model's choice (log entry 3). -/
def Obligations.FrameUnitIsDecoded : Prop :=
  ∀ (s : State) (m : Message), s.Accepts → s.dec.startsFrame = true → m.body.length ≤ s.cfg.maxBody →
    (m.destHigh = s.cfg.wildcard ∨ m.destLow ≤ m.destHigh) →
    ∃ t, exec (.frame m) s = .next t ∧ t.dec.pstate = .ready ∧ t.dec.message = m ∧
      t.dec.messageChecksum = s.cfg.checksum m.fields

/-- A frame with an invalid range is `Ignored` at its fourth header byte, and still at its end unless its body or checksum
holds a `START`: in `Ignored` an `ESC` does not shield one, and it restarts the decoder (R184 'until the next `START`', R131).
That a whole frame runs as one event is the model's choice (log entry 3). -/
def Obligations.FrameUnitWithInvalidRangeIsIgnored : Prop :=
  ∀ (s : State) (m : Message), s.Accepts → s.dec.startsFrame = true → m.body.length ≤ s.cfg.maxBody →
    m.destHigh ≠ s.cfg.wildcard → m.destHigh < m.destLow →
    (∃ t,
      runEvents (([s.cfg.startByte] ++ [m.destLow, m.destHigh, m.source, m.type].flatMap s.cfg.escape).map .feed) s = .next t ∧
        t.dec.pstate = .ignored) ∧
    ∃ t, exec (.frame m) s = .next t ∧
      (s.cfg.startByte ∉ m.body ++ [s.cfg.checksum m.fields] → t.dec.pstate = .ignored)

/-- The length of a frame on the wire: two markers, five bytes and the body, and one `ESC` for each reserved byte among
them; 7 to `2 + 2 * (5 + MAX_BODY)` (R96). -/
def Obligations.FrameLengthCountsItsEscapes : Prop :=
  ∀ (c : Config) (m : Message), m.body.length ≤ c.maxBody →
    (c.encodeFrame m).length =
        2 + (5 + m.body.length) + (m.fields ++ [c.checksum m.fields]).countP c.reserved ∧
      7 ≤ (c.encodeFrame m).length ∧ (c.encodeFrame m).length ≤ 2 + 2 * (5 + c.maxBody)

-- ---- the checksum: 42_checksum.md ----

/-- The closed form of the default checksum (R205; D7). -/
def Obligations.ChecksumClosedForm : Prop :=
  ∀ (c : Config) (xs : List Byte), c.csFold = .rotXor →
    c.checksum xs =
      xs.zipIdx.foldl (fun acc p => acc ^^^ rotl8 p.1 ((xs.length - 1 - p.2) % 8)) (rotl8 c.csSeed (xs.length % 8))

/-- One flipped bit in a field flips exactly one bit of the default checksum, and the two double flips the spec names leave
it unchanged (R206; D7). -/
def Obligations.SingleBitErrorFlipsOneChecksumBit : Prop :=
  ∀ (c : Config) (xs : List Byte) (i j : Nat) (x y : Byte), c.csFold = .rotXor → xs[i]? = some x → j < 8 →
    c.checksum (xs.set i (x ^^^ (1#8 <<< j))) = c.checksum xs ^^^ (1#8 <<< ((j + xs.length - 1 - i) % 8)) ∧
    (xs[i + 1]? = some y →
      c.checksum ((xs.set i (x ^^^ 1#8)).set (i + 1) (y ^^^ 2#8)) = c.checksum xs) ∧
    (xs[i + 8]? = some y →
      c.checksum ((xs.set i (x ^^^ (1#8 <<< j))).set (i + 8) (y ^^^ (1#8 <<< j))) = c.checksum xs)

/-- One flipped bit in a frame, in a field or the checksum byte, that keeps the framing is not accepted (R207; D7). While the
range stays valid the decoder ends in `Aborted`. A flip that makes it invalid gives `Ignored` at the fourth header byte, and
still at the end unless the body or the checksum holds a `START`, which restarts the decoder (R131; R207 leaves that case out,
log entry 22). `i` counts destLow to checksum. -/
def Obligations.FramedSingleBitErrorIsRejected : Prop :=
  ∀ (s : State) (m : Message) (bytes flipped : List Byte) (i j : Nat) (x y : Byte), s.Accepts → s.dec.startsFrame = true →
    s.cfg.csFold = .rotXor → m.body.length ≤ s.cfg.maxBody → s.cfg.badRange m.destLow m.destHigh = false →
    bytes = m.fields ++ [s.cfg.checksum m.fields] → bytes[i]? = some x → j < 8 → y = x ^^^ (1#8 <<< j) →
    (s.cfg.reserved x = true ∨ s.cfg.reserved y = false) →
    flipped =
      [s.cfg.startByte] ++ (bytes.take i).flatMap s.cfg.escape ++ (if s.cfg.reserved x then [s.cfg.escByte, y] else [y]) →
    ∃ t,
      runEvents ((flipped ++ (bytes.drop (i + 1)).flatMap s.cfg.escape ++ [s.cfg.endByte]).map .feed) s = .next t ∧
        if s.cfg.badRange (if i = 0 then y else m.destLow) (if i = 1 then y else m.destHigh) then
          (∃ u,
            runEvents ((flipped ++ ((bytes.take 4).drop (i + 1)).flatMap s.cfg.escape).map .feed) s = .next u ∧
              u.dec.pstate = .ignored) ∧
          (s.cfg.startByte ∉ m.body ++ [s.cfg.checksum m.fields] → t.dec.pstate = .ignored)
        else t.dec.pstate = .aborted

-- ---- the timeout: 43_timeout.md ----

/-- `TICK` advances the timer while a message is in progress, up to `T_MSG + 1`, and changes nothing else (R221; D12, D34). -/
def Obligations.TickAdvancesOnlyTheTimer : Prop :=
  ∀ s : State, s.Accepts →
    exec .tick s = .next
      { s with
        dec :=
          { s.dec with
            elapsed :=
              if (s.dec.pstate = .header ∨ s.dec.pstate = .active) ∧ s.dec.elapsed ≤ s.cfg.tMsg then s.dec.elapsed + 1
              else s.dec.elapsed } }

/-- `POLL` takes a message in progress to `TimedOut` once more than `T_MSG` ticks have passed, and returns the state
(R222, R223; D12). -/
def Obligations.PollTimesOutAfterTheBound : Prop :=
  ∀ s : State, s.Accepts →
    exec .poll s = .next
      (if (s.dec.pstate = .header ∨ s.dec.pstate = .active) ∧ s.cfg.tMsg < s.dec.elapsed then
        { s with dec := { s.dec with pstate := .timedOut, esc := false }, obs := s.obs ++ [.status 7] }
      else { s with obs := s.obs ++ [.status s.dec.pstate.code] })

/-- A byte that arrives after the bound is judged in `TimedOut`: a `START` begins a new frame, every other byte is discarded
(R222, R307; D13). -/
def Obligations.LateByteIsJudgedInTimedOut : Prop :=
  ∀ (s : State) (b : Byte), s.Accepts → (s.dec.pstate = .header ∨ s.dec.pstate = .active) → s.cfg.tMsg < s.dec.elapsed →
    exec (.feed b) s = .next
      (s.withStatus
        (if b = s.cfg.startByte then
          { s.dec with pstate := .header, esc := false, hidx := 0, n := 0, csacc := s.cfg.csSeed, elapsed := 0 }
        else { s.dec with pstate := .timedOut, esc := false }))

/-- When bytes stop in the middle of a frame, a `POLL` after `k` more ticks answers `TimedOut` exactly if more than `T_MSG`
have passed since the `START`; until then the frame stays in progress (R222, R306). -/
def Obligations.SilentTransportTimesOut : Prop :=
  ∀ (s : State) (k : Nat), s.Accepts → (s.dec.pstate = .header ∨ s.dec.pstate = .active) →
    ∃ t, runEvents (List.replicate k .tick ++ [.poll]) s = .next t ∧
      t.dec.pstate = if s.cfg.tMsg < s.dec.elapsed + k then .timedOut else s.dec.pstate

-- ---- the range matcher: 44_addressing.md, and R98 ----

/-- `MATCH` answers whether the range applies to the address, and changes nothing else (R240 with its corner case; D18). That
`a = 0` matches nothing under a `CTRL_ADDR` other than 0 too is the model's choice (log entry 23). -/
def Obligations.MatchAnswersTheRangeRule : Prop :=
  ∀ (s : State) (lo hi a : Byte), s.Accepts →
    exec (.matchRange lo hi a) s = .next
      { s with
        obs := s.obs ++
          [.matched (decide
            (a ≠ 0 ∧ lo ≠ s.cfg.ctrlAddr ∧ lo ≤ a ∧ (hi = s.cfg.wildcard ∨ (lo ≤ hi ∧ a ≤ hi))))] }

/-- The source's own statements of the rule (R245), and that a node without an address matches nothing (R241, R344), which
under a `CTRL_ADDR` other than 0 is the model's choice (log entry 23). -/
def Obligations.MatchOfTheSourceExamples : Prop :=
  ∀ (s : State) (lo hi a : Byte), s.Accepts →
    (s.cfg.ctrlAddr = 0 → s.cfg.wildcard ≠ 10 →
      exec (.matchRange 5 s.cfg.wildcard a) s = .next (s.record (.matched (decide (5 ≤ a)))) ∧
      exec (.matchRange 5 10 a) s = .next (s.record (.matched (decide (5 ≤ a ∧ a ≤ 10)))) ∧
      exec (.matchRange 0 0 a) s = .next (s.record (.matched false))) ∧
    exec (.matchRange lo hi 0) s = .next (s.record (.matched false))

/-- The destination pseudo-forms match the nodes their table says (R98; D4, D18), with the controller's test (R243). -/
def Obligations.DestinationFormsMatchTheirNodes : Prop :=
  ∀ (c : Config) (a b lo hi : Byte), c.ctrlAddr = 0 → c.wildcard ≠ 0 → a ≠ 0 →
    (b ≠ 0 → b ≠ c.wildcard →
      (c.matchAddr (c.expandDest (.single b)).1 (c.expandDest (.single b)).2 a = true ↔ a = b)) ∧
    (lo ≠ 0 → lo ≤ hi → hi ≠ c.wildcard →
      (c.matchAddr (c.expandDest (.range lo hi)).1 (c.expandDest (.range lo hi)).2 a = true ↔ lo ≤ a ∧ a ≤ hi)) ∧
    (lo ≠ 0 → (c.matchAddr (c.expandDest (.onward lo)).1 (c.expandDest (.onward lo)).2 a = true ↔ lo ≤ a)) ∧
    c.matchAddr (c.expandDest .all).1 (c.expandDest .all).2 a = true ∧
    c.matchAddr (c.expandDest .controller).1 (c.expandDest .controller).2 a = false ∧
    c.forController (c.expandDest .controller).1 (c.expandDest .controller).2 = true

-- ---- the daisy chain: 45_daisy_chain.md ----

/-- `DC_STEP` in `Unconfigured` releases both links and waits for an enable, whatever the samples (R261; D19, D21). -/
def Obligations.UnconfiguredStepReleasesTheLinks : Prop :=
  ∀ (s : State) (s0 s1 : Bool), s.Accepts → s.daisy.dstate = .unconfigured →
    exec (.dcStep s0 s1) s = .next
      { s with daisy := { dstate := .awaitingEnable, up := none, drive0 := false, drive1 := false } }

/-- `DC_STEP` in `AwaitingEnable` waits while no link is asserted, and at the first sample with one takes it for upstream, a
tie going to `TIE_LINK` (R262, R263; D19). -/
def Obligations.FirstAssertedLinkBecomesUpstream : Prop :=
  ∀ s : State, s.Accepts → s.daisy.dstate = .awaitingEnable →
    exec (.dcStep false false) s = .next s ∧
    exec (.dcStep true false) s = .next { s with daisy := { s.daisy with up := some .link0, dstate := .claimingAddress } } ∧
    exec (.dcStep false true) s = .next { s with daisy := { s.daisy with up := some .link1, dstate := .claimingAddress } } ∧
    exec (.dcStep true true) s =
      .next { s with daisy := { s.daisy with up := some s.cfg.tieLink, dstate := .claimingAddress } }

/-- `DC_STEP` in `ClaimingAddress` and in `Configured` changes nothing (R264, R268; D20, D21). -/
def Obligations.ClaimingAndConfiguredStepsChangeNothing : Prop :=
  ∀ (s : State) (s0 s1 : Bool), s.Accepts → (s.daisy.dstate = .claimingAddress ∨ s.daisy.dstate = .configured) →
    exec (.dcStep s0 s1) s = .next s

/-- `DC_STEP` in `EnablingDownstream` asserts the downstream link, the one that is not upstream, and finishes, whatever the
samples (R267). -/
def Obligations.EnablingStepAssertsTheDownstreamLink : Prop :=
  ∀ (s : State) (s0 s1 : Bool), s.Accepts → s.daisy.dstate = .enablingDownstream →
    (s.daisy.up = some .link0 →
      exec (.dcStep s0 s1) s = .next { s with daisy := { s.daisy with drive1 := true, dstate := .configured } }) ∧
    (s.daisy.up = some .link1 →
      exec (.dcStep s0 s1) s = .next { s with daisy := { s.daisy with drive0 := true, dstate := .configured } })

/-- `DC_GRANT(a)` in `ClaimingAddress` with a peripheral's address, `a != CTRL_ADDR` and `a != 0`, records the address and moves
on (R265, R266; D20, D33). That both are ruled out under a `CTRL_ADDR` other than 0 is the model's choice (log entry 21). -/
def Obligations.GrantIsRecorded : Prop :=
  ∀ (s : State) (a : Byte), s.Accepts → s.daisy.dstate = .claimingAddress → a ≠ s.cfg.ctrlAddr → a ≠ 0 →
    exec (.dcGrant a) s =
      .next { s with myAddress := a, daisy := { s.daisy with dstate := .enablingDownstream } }

/-- A grant of `CTRL_ADDR` or of 0, or in any state but `ClaimingAddress`, is ignored (R265, R78; D20, D33). That both are
ruled out under a `CTRL_ADDR` other than 0 is the model's choice (log entry 21). -/
def Obligations.OtherGrantsAreIgnored : Prop :=
  ∀ (s : State) (a : Byte), s.Accepts → (s.daisy.dstate ≠ .claimingAddress ∨ a = s.cfg.ctrlAddr ∨ a = 0) →
    exec (.dcGrant a) s = .next s

/-- `myAddress` is written only by an accepted grant, and cleared only by `POR` (R44, R341). That the address is
then neither `CTRL_ADDR` nor 0 (R265; D20, D33) is, under a `CTRL_ADDR` other than 0, the model's choice (log entry 21). -/
def Obligations.AddressIsWrittenOnlyByAnAcceptedGrant : Prop :=
  ∀ (i : Instr) (s t : State), exec i s = .next t → t.myAddress ≠ s.myAddress →
    (i = .dcGrant t.myAddress ∧ s.daisy.dstate = .claimingAddress ∧ t.myAddress ≠ s.cfg.ctrlAddr ∧ t.myAddress ≠ 0 ∧
      t.daisy.dstate = .enablingDownstream) ∨
    (i = .por ∧ t.myAddress = 0)

/-- Once resolved, `up` stays until `POR`; `Configured` is left, and a link released, only by `POR`; and a link is asserted
only on the step out of `EnablingDownstream`, the downstream one (R41, R268, R269, R341). -/
def Obligations.TopologyIsFixedUntilPor : Prop :=
  ∀ (i : Instr) (s t : State), s.Inv → exec i s = .next t → i ≠ .por →
    (s.daisy.up ≠ none → t.daisy.up = s.daisy.up) ∧
    (s.daisy.dstate = .configured → t.daisy.dstate = .configured) ∧
    ∀ l, (s.daisy.drive l = true → t.daisy.drive l = true) ∧
      (s.daisy.drive l = false → t.daisy.drive l = true →
        s.daisy.dstate = .enablingDownstream ∧ t.daisy.dstate = .configured ∧ s.daisy.up = some l.other)

/-- The codec and the daisy-chain FSM neither write nor read each other's state (R273; D29): an event that is neither a
daisy-chain event nor `POR` goes the same way whatever the FSM's state and leaves it alone, and a daisy-chain event goes the
same way whatever the decoder's state and leaves it alone. -/
def Obligations.CodecAndDaisyChainAreIndependent : Prop :=
  ∀ (i : Instr) (s t : State), exec i s = .next t → i ≠ .por →
    (isDaisyEvent i = false → ∀ (d : Daisy) (a : Byte),
      exec i { s with daisy := d, myAddress := a } = .next { t with daisy := d, myAddress := a } ∧
      t.daisy = s.daisy ∧ t.myAddress = s.myAddress) ∧
    (isDaisyEvent i = true → ∀ d : Decoder,
      exec i { s with dec := d } = .next { t with dec := d } ∧ t.dec = s.dec ∧ t.obs = s.obs)

/-- In a chain whose nodes start from `POR`, at most one node claims an address at any time (R270, R271; D23).
The wiring is the model's composition of R270 (log entry 17). -/
def Obligations.AtMostOneNodeClaims : Prop :=
  ∀ (c d : Chain) (ms : List ChainMove), (∀ x ∈ c.nodes, x.fresh = true) → (∀ m ∈ ms, m.isPor = false) →
    c.run ms = some d → ∀ j k, d.dstate j = some .claimingAddress → d.dstate k = some .claimingAddress → j = k

/-- In such a chain no node that waits for its enable sees both its wires asserted, so `TIE_LINK` is never used, and each
resolves the wire toward the controller for upstream (R271; D23). The wiring is the model's composition of R270 (log
entry 17). -/
def Obligations.WaitingNodeNeverSeesBothWires : Prop :=
  ∀ (c d : Chain) (ms : List ChainMove), (∀ x ∈ c.nodes, x.fresh = true) → (∀ m ∈ ms, m.isPor = false) →
    c.run ms = some d →
    (∀ k, d.dstate k = some .awaitingEnable → d.wire (k + 1) = false) ∧
    ∀ (k : Nat) (x : ChainNode), d.nodes[k]? = some x → x.block.daisy.up ≠ none → x.block.daisy.up = some x.nearLink

/-- When the grant source keeps its duty of R272, claimed addresses rise along the chain, so none repeats (R271, R272; D20).
The wiring is the model's composition of R270 (D23, log entry 17). -/
def Obligations.ClaimedAddressesRiseAlongTheChain : Prop :=
  ∀ (c d : Chain) (ms : List ChainMove), (∀ x ∈ c.nodes, x.fresh = true) → (∀ m ∈ ms, m.isPor = false) →
    grantsIncrease (ms.filterMap ChainMove.grant?) → c.run ms = some d →
    ∀ (j k : Nat) (a b : Byte), j < k → d.address j = some a → d.address k = some b →
      (d.dstate k = some .enablingDownstream ∨ d.dstate k = some .configured) → d.dstate j = some .configured ∧ a < b

/-- Three transitions a node configure a chain of `N_NODES` nodes once the controller asserts its enable: `AwaitingEnable` to
`ClaimingAddress`, the grant, and the step that enables the next node (R272; D20, 90_conflicts.md C8). The wiring is the
model's composition of R270 (D23, log entry 17). -/
def Obligations.ThreeTransitionsANodeConfigureTheChain : Prop :=
  ∀ (c : Chain) (addr : Nat → Byte),
    c.composed = true → c.enable = true → (∀ x ∈ c.nodes, x.fresh = true ∧ x.block.cfg.valid = true) →
    (∀ (k : Nat) (x : ChainNode), c.nodes[k]? = some x → addr k ≠ x.block.cfg.ctrlAddr ∧ addr k ≠ 0) →
    ∃ d,
      c.run ((List.range c.nodes.length).map .dcStep ++
        (List.range c.nodes.length).flatMap fun k => [.dcStep k, .event k (.dcGrant (addr k)), .dcStep k]) = some d ∧
      d.nodes.length = c.nodes.length ∧
      ∀ k < c.nodes.length, d.dstate k = some .configured ∧ d.address k = some (addr k) ∧ d.farDrive k = true

-- ---- errors, refusals, reset: 60_exceptions.md, 70_reset_and_hazards.md, 10_state.md ----

/-- The codes of the status outputs (R110, R111, R112) and the claim request (R43). -/
def Obligations.StatusCodesAreTheTables : Prop :=
  [PState.idle, .header, .active, .ready, .ignored, .aborted, .overflowed, .timedOut].map PState.code =
      [0, 1, 2, 3, 4, 5, 6, 7] ∧
  [DState.unconfigured, .awaitingEnable, .claimingAddress, .enablingDownstream, .configured].map DState.code =
      [0, 1, 2, 3, 4] ∧
  [PState.idle, .header, .active, .ready, .ignored, .aborted, .overflowed, .timedOut].map PState.err =
      [0, 0, 0, 0, 4, 1, 2, 3] ∧
  ∀ s : State, s.claimReq = true ↔ s.daisy.dstate = .claimingAddress

/-- The refusals of an event are exactly those of R310's table, each under its condition (R310; D14, D15, D16). The
model's choice: a bad configuration refuses every event, ahead of the other refusals (log entry 5), and a `SEND` is in progress
exactly while `txen = 1`, where `POR` is refused like any event (log entry 7). -/
def Obligations.RefusalsAreExactlyTheTable : Prop :=
  ∀ (i : Instr) (s : State) (r : Refusal),
    exec i s = .refused r ↔
      (s.cfg.valid = false ∧ r = .badConfiguration) ∨
      (s.cfg.valid = true ∧ s.txen = true ∧ r = .feedDuringSend) ∨
      (s.Accepts ∧ r = .sendBodyTooLong ∧ ∃ m, i = .send m ∧ s.cfg.maxBody < m.body.length) ∨
      (s.Accepts ∧ r = .readOutsideReady ∧ i = .readMsg ∧ s.dec.pstate ≠ .ready)

/-- The one stop that is no refusal is a `SEND` on a transport that does not complete its bytes (R354; D35). That a stuck block
is a named fault, and the transport a count of the bytes it completes, is the model's choice (log entry 6). -/
def Obligations.OnlyABlockedTransportIsStuck : Prop :=
  ∀ (i : Instr) (s : State) (f : Fault),
    exec i s = .fault f ↔
      s.Accepts ∧ f = .transportBlocked ∧
        ∃ m k, i = .send m ∧ m.body.length ≤ s.cfg.maxBody ∧ s.credit = some k ∧ k < (s.cfg.encodeFrame m).length

/-- `POR` sets every piece of the block's state to its value of 10_state.md section 7, the header registers and the buffer to
a new draw that the statement does not fix, whatever the state before it between events (R340; D21, D22, D24). That the
configuration and the environment's fields stay is the model's choice (log entry 8). -/
def Obligations.PorSetsEveryPieceOfState : Prop :=
  ∀ s : State, s.Accepts →
    ∃ h : Header,
      exec .por s = .next
        { s with
          dec :=
            { pstate := .idle, esc := false, hidx := 0, hdr := h, n := 0, data := [], csacc := s.cfg.csSeed
              elapsed := 0, draw := s.dec.draw + 1 }
          txen := false
          daisy := { dstate := .unconfigured, up := none, drive0 := false, drive1 := false }
          myAddress := 0 }

/-- The reset state holds the values of 10_state.md section 7, with no buffer cell written; the header registers are a draw that
the statement does not fix (R340; D21, D22, D24). -/
def Obligations.ResetHoldsThePowerOnValues : Prop :=
  State.reset.dec.pstate = .idle ∧ State.reset.dec.esc = false ∧ State.reset.dec.hidx = 0 ∧ State.reset.dec.n = 0 ∧
  State.reset.dec.data = [] ∧ State.reset.dec.csacc = State.reset.cfg.csSeed ∧ State.reset.dec.elapsed = 0 ∧
  State.reset.txen = false ∧ State.reset.daisy.dstate = .unconfigured ∧ State.reset.daisy.up = none ∧
  State.reset.daisy.drive0 = false ∧ State.reset.daisy.drive1 = false ∧ State.reset.myAddress = 0 ∧
  State.reset.claimReq = false

/-- The state after reset meets the invariant. -/
def Obligations.ResetMeetsTheInvariant : Prop := State.reset.Inv

/-- Every step keeps the invariant: `esc` only in a frame (R32), the bounds of `hidx`, `n` and `elapsed` (R33, R35, R37), what
`csacc` covers (R36), `txen` off between events (R38), a verified message in `Ready` (R153), the buffer's canonical form, and
the daisy chain's (R41, R44, R269), in which an assigned address is neither `CTRL_ADDR` nor 0 (R265; D20, D33): that both are
ruled out under a `CTRL_ADDR` other than 0 is the model's choice (log entry 21). -/
def Obligations.StepKeepsTheInvariant : Prop :=
  ∀ s t : State, s.Inv → step s = .next t → t.Inv

/-- No step writes the configuration (R84), and results are only ever added to (R357). The model's choice: the
configuration is a field of the state (log entry 5), and the results are another (log entry 14) that `POR` keeps too (log
entry 8). -/
def Obligations.StepKeepsConfigurationAndResults : Prop :=
  ∀ s t : State, step s = .next t → t.cfg = s.cfg ∧ ∃ added, t.obs = s.obs ++ added

/-- The header registers at `hidx` or above, the cells at `n` or above and the power-on draw are never observable: two states
that agree on all else take the same step (R72, R340, D24, D25). -/
def Obligations.StaleBytesAreNotObservable : Prop :=
  ∀ s t : State, s.Inv → t.Inv → s.SameVisible t → Answer.SameVisible (step s) (step t)
end

