-- ==== Sys2Proof/Laws/State.lean ====
section
/-!
SUPPORT. What each named update of the state leaves in each field, by `rfl`, so that no proof unfolds a record update.
-/

namespace Sys2Proof.Machine

section Record
variable (s : State) (r : Result)
@[simp] theorem State.record_cfg : (s.record r).cfg = s.cfg := rfl
@[simp] theorem State.record_dec : (s.record r).dec = s.dec := rfl
@[simp] theorem State.record_txen : (s.record r).txen = s.txen := rfl
@[simp] theorem State.record_daisy : (s.record r).daisy = s.daisy := rfl
@[simp] theorem State.record_myAddress : (s.record r).myAddress = s.myAddress := rfl
@[simp] theorem State.record_pending : (s.record r).pending = s.pending := rfl
@[simp] theorem State.record_obs : (s.record r).obs = s.obs ++ [r] := rfl
@[simp] theorem State.record_credit : (s.record r).credit = s.credit := rfl
end Record

section WithStatus
variable (s : State) (d : Decoder)
@[simp] theorem State.withStatus_cfg : (s.withStatus d).cfg = s.cfg := rfl
@[simp] theorem State.withStatus_dec : (s.withStatus d).dec = d := rfl
@[simp] theorem State.withStatus_txen : (s.withStatus d).txen = s.txen := rfl
@[simp] theorem State.withStatus_daisy : (s.withStatus d).daisy = s.daisy := rfl
@[simp] theorem State.withStatus_myAddress : (s.withStatus d).myAddress = s.myAddress := rfl
@[simp] theorem State.withStatus_pending : (s.withStatus d).pending = s.pending := rfl
@[simp] theorem State.withStatus_obs : (s.withStatus d).obs = s.obs ++ [.status d.pstate.code] := rfl
@[simp] theorem State.withStatus_credit : (s.withStatus d).credit = s.credit := rfl
end WithStatus

section FeedByte
variable (s : State) (b : Byte)
@[simp] theorem State.feedByte_cfg : (s.feedByte b).cfg = s.cfg := rfl
@[simp] theorem State.feedByte_dec : (s.feedByte b).dec = s.dec.feed s.cfg b := rfl
@[simp] theorem State.feedByte_txen : (s.feedByte b).txen = s.txen := rfl
@[simp] theorem State.feedByte_daisy : (s.feedByte b).daisy = s.daisy := rfl
@[simp] theorem State.feedByte_myAddress : (s.feedByte b).myAddress = s.myAddress := rfl
@[simp] theorem State.feedByte_pending : (s.feedByte b).pending = s.pending := rfl
@[simp] theorem State.feedByte_credit : (s.feedByte b).credit = s.credit := rfl
end FeedByte

section SetTxen
variable (s : State) (v : Bool)
@[simp] theorem State.setTxen_cfg : (s.setTxen v).cfg = s.cfg := rfl
@[simp] theorem State.setTxen_dec : (s.setTxen v).dec = s.dec := rfl
@[simp] theorem State.setTxen_txen : (s.setTxen v).txen = v := rfl
@[simp] theorem State.setTxen_daisy : (s.setTxen v).daisy = s.daisy := rfl
@[simp] theorem State.setTxen_myAddress : (s.setTxen v).myAddress = s.myAddress := rfl
@[simp] theorem State.setTxen_pending : (s.setTxen v).pending = s.pending := rfl
@[simp] theorem State.setTxen_obs : (s.setTxen v).obs = s.obs := rfl
@[simp] theorem State.setTxen_credit : (s.setTxen v).credit = s.credit := rfl
end SetTxen

section EnterTerminal
variable (d : Decoder) (p : PState)
@[simp] theorem Decoder.enterTerminal_pstate : (d.enterTerminal p).pstate = p := rfl
@[simp] theorem Decoder.enterTerminal_esc : (d.enterTerminal p).esc = false := rfl
@[simp] theorem Decoder.enterTerminal_hidx : (d.enterTerminal p).hidx = d.hidx := rfl
@[simp] theorem Decoder.enterTerminal_hdr : (d.enterTerminal p).hdr = d.hdr := rfl
@[simp] theorem Decoder.enterTerminal_n : (d.enterTerminal p).n = d.n := rfl
@[simp] theorem Decoder.enterTerminal_data : (d.enterTerminal p).data = d.data := rfl
@[simp] theorem Decoder.enterTerminal_csacc : (d.enterTerminal p).csacc = d.csacc := rfl
@[simp] theorem Decoder.enterTerminal_elapsed : (d.enterTerminal p).elapsed = d.elapsed := rfl
@[simp] theorem Decoder.enterTerminal_draw : (d.enterTerminal p).draw = d.draw := rfl
end EnterTerminal

section Restart
variable (c : Config) (d : Decoder)
@[simp] theorem Decoder.restart_pstate : (d.restart c).pstate = .header := rfl
@[simp] theorem Decoder.restart_esc : (d.restart c).esc = false := rfl
@[simp] theorem Decoder.restart_hidx : (d.restart c).hidx = 0 := rfl
@[simp] theorem Decoder.restart_hdr : (d.restart c).hdr = d.hdr := rfl
@[simp] theorem Decoder.restart_n : (d.restart c).n = 0 := rfl
@[simp] theorem Decoder.restart_data : (d.restart c).data = d.data := rfl
@[simp] theorem Decoder.restart_csacc : (d.restart c).csacc = c.csSeed := rfl
@[simp] theorem Decoder.restart_elapsed : (d.restart c).elapsed = 0 := rfl
@[simp] theorem Decoder.restart_draw : (d.restart c).draw = d.draw := rfl
@[simp] theorem Decoder.toIdle_pstate : (d.toIdle c).pstate = .idle := rfl
@[simp] theorem Decoder.toIdle_esc : (d.toIdle c).esc = false := rfl
@[simp] theorem Decoder.toIdle_hidx : (d.toIdle c).hidx = 0 := rfl
@[simp] theorem Decoder.toIdle_hdr : (d.toIdle c).hdr = d.hdr := rfl
@[simp] theorem Decoder.toIdle_n : (d.toIdle c).n = 0 := rfl
@[simp] theorem Decoder.toIdle_data : (d.toIdle c).data = d.data := rfl
@[simp] theorem Decoder.toIdle_csacc : (d.toIdle c).csacc = c.csSeed := rfl
@[simp] theorem Decoder.toIdle_elapsed : (d.toIdle c).elapsed = 0 := rfl
@[simp] theorem Decoder.toIdle_draw : (d.toIdle c).draw = d.draw := rfl
end Restart

section PowerOn
variable (c : Config) (d : Decoder)
@[simp] theorem Decoder.powerOn_pstate : (d.powerOn c).pstate = .idle := rfl
@[simp] theorem Decoder.powerOn_esc : (d.powerOn c).esc = false := rfl
@[simp] theorem Decoder.powerOn_hidx : (d.powerOn c).hidx = 0 := rfl
@[simp] theorem Decoder.powerOn_n : (d.powerOn c).n = 0 := rfl
@[simp] theorem Decoder.powerOn_data : (d.powerOn c).data = [] := rfl
@[simp] theorem Decoder.powerOn_csacc : (d.powerOn c).csacc = c.csSeed := rfl
@[simp] theorem Decoder.powerOn_elapsed : (d.powerOn c).elapsed = 0 := rfl
@[simp] theorem Decoder.powerOn_draw : (d.powerOn c).draw = d.draw + 1 := rfl
end PowerOn

section HdrWrite
variable (c : Config) (b : Byte) (d : Decoder)
@[simp] theorem Decoder.hdrWrite_pstate : (d.hdrWrite c b).pstate = d.pstate := rfl
@[simp] theorem Decoder.hdrWrite_esc : (d.hdrWrite c b).esc = d.esc := rfl
@[simp] theorem Decoder.hdrWrite_hidx : (d.hdrWrite c b).hidx = d.hidx + 1 := rfl
@[simp] theorem Decoder.hdrWrite_hdr : (d.hdrWrite c b).hdr = d.hdr.set d.hidx b := rfl
@[simp] theorem Decoder.hdrWrite_n : (d.hdrWrite c b).n = d.n := rfl
@[simp] theorem Decoder.hdrWrite_data : (d.hdrWrite c b).data = d.data := rfl
@[simp] theorem Decoder.hdrWrite_csacc : (d.hdrWrite c b).csacc = c.fold d.csacc b := rfl
@[simp] theorem Decoder.hdrWrite_elapsed : (d.hdrWrite c b).elapsed = d.elapsed := rfl
@[simp] theorem Decoder.hdrWrite_draw : (d.hdrWrite c b).draw = d.draw := rfl
end HdrWrite

section Links
variable (d : Daisy)
@[simp] theorem Link.other_other (l : Link) : l.other.other = l := by cases l <;> rfl
@[simp] theorem Daisy.assertLink_dstate (l : Link) : (d.assertLink l).dstate = d.dstate := by cases l <;> rfl
@[simp] theorem Daisy.assertLink_up (l : Link) : (d.assertLink l).up = d.up := by cases l <;> rfl
@[simp] theorem Daisy.drive_assertLink_same (l : Link) : (d.assertLink l).drive l = true := by cases l <;> rfl
theorem Daisy.drive_assertLink_other (l k : Link) (h : k ≠ l) : (d.assertLink l).drive k = d.drive k := by
  cases l <;> cases k <;> simp_all [Daisy.assertLink, Daisy.drive]
end Links

end Sys2Proof.Machine
end

