-- ==== Sys2Proof/Laws/Buffer.lean ====
section
/-!
SUPPORT. The receive buffer: a read after a write, the canonical form, and the header registers by index.
-/

namespace Sys2Proof.Machine

/-- A write is read back, and leaves every other cell as it was. -/
theorem Memory.read?_write (m : Memory) (i k : Nat) (v : Byte) :
    Memory.read? (Memory.write m i v) k = if k = i then some v else Memory.read? m k := by
  induction m with
  | nil => simp [Memory.write, Memory.read?]
  | cons e rest ih =>
    obtain ⟨j, b⟩ := e
    simp only [Memory.write]
    split
    · simp [Memory.read?]
    · split
      · subst i
        by_cases hk : k = j <;> simp [Memory.read?, hk]
      · simp only [Memory.read?, ih]
        by_cases hk : k = j <;> by_cases hi : k = i <;> simp_all

/-- The cells a write lists are those listed before and the one written. -/
theorem Memory.mem_write {m : Memory} {i : Nat} {v : Byte} {e : Host.Cell} (h : e ∈ Memory.write m i v) :
    e = (i, v) ∨ e ∈ m := by
  induction m with
  | nil => simpa [Memory.write] using h
  | cons f rest ih =>
    obtain ⟨j, b⟩ := f
    simp only [Memory.write] at h
    split at h
    · simpa using h
    · split at h
      · simp only [List.mem_cons] at h ⊢
        tauto
      · simp only [List.mem_cons] at h ⊢
        rcases h with h | h
        · tauto
        · have := ih h
          tauto

/-- A write below the capacity keeps the canonical form. -/
theorem Memory.write_wf {cap : Nat} {m : Memory} {i : Nat} (v : Byte) (h : Memory.wf cap m) (hi : i < cap) :
    Memory.wf cap (Memory.write m i v) := by
  refine ⟨?_, fun e he => ?_⟩
  · have hs := h.1
    clear h
    induction m with
    | nil => simp [Memory.write]
    | cons f rest ih =>
      obtain ⟨j, b⟩ := f
      rw [List.pairwise_cons] at hs
      simp only [Memory.write]
      split
      · rename_i hij
        refine List.pairwise_cons.2 ⟨fun e he => ?_, List.pairwise_cons.2 hs⟩
        rcases List.mem_cons.1 he with rfl | he
        · exact hij
        · exact Nat.lt_trans hij (hs.1 e he)
      · split
        · rename_i hij
          exact List.pairwise_cons.2 ⟨fun e he => by simpa [hij] using hs.1 e he, hs.2⟩
        · refine List.pairwise_cons.2 ⟨fun e he => ?_, ih hs.2⟩
          rcases Memory.mem_write he with rfl | he
          · show j < i
            omega
          · exact hs.1 e he
  · rcases Memory.mem_write he with rfl | he
    · exact hi
    · exact h.2 e he

/-- `BufWrite` keeps the canonical form. -/
theorem Decoder.bufWrite_wf (c : Config) (d : Decoder) (i : Nat) (v : Byte) (h : Memory.wf c.rxCap d.data) :
    Memory.wf c.rxCap (d.bufWrite c i v) := by
  unfold Decoder.bufWrite
  split
  · exact Memory.write_wf v h ‹_›
  · exact h

/-- What `BufWrite` leaves to read: the byte written, in its cell, and every other cell as it was. -/
theorem Decoder.bufRead_bufWrite (c : Config) (d : Decoder) (i k : Nat) (v : Byte) (h : i < c.rxCap) :
    Decoder.bufRead { d with data := d.bufWrite c i v } k = if k = i then v else d.bufRead k := by
  unfold Decoder.bufRead Decoder.bufWrite
  simp only [h, if_true, Memory.read?_write]
  by_cases hk : k = i <;> simp [hk]

/-- Reading depends on the buffer and the draw alone. -/
theorem Decoder.bufRead_congr {d e : Decoder} (h : d.data = e.data) (hd : d.draw = e.draw) (k : Nat) :
    d.bufRead k = e.bufRead k := by
  simp only [Decoder.bufRead, h, hd]

/-- The cells below `k` depend on what is read below `k` alone. -/
theorem Decoder.cells_congr {d e : Decoder} {k : Nat} (h : ∀ i < k, d.bufRead i = e.bufRead i) :
    d.cells k = e.cells k :=
  List.map_congr_left fun i hi => h i (List.mem_range.1 hi)

@[simp] theorem Decoder.cells_zero (d : Decoder) : d.cells 0 = [] := rfl

@[simp] theorem Decoder.length_cells (d : Decoder) (k : Nat) : (d.cells k).length = k := by
  simp [Decoder.cells]

theorem Decoder.cells_succ (d : Decoder) (k : Nat) : d.cells (k + 1) = d.cells k ++ [d.bufRead k] := by
  simp [Decoder.cells, List.range_succ]

/-- Storing a header byte at the index adds it to the bytes stored so far. -/
theorem Header.take_set (h : Header) (i : Nat) (b : Byte) (hi : i < 4) :
    (h.set i b).toList.take (i + 1) = h.toList.take i ++ [b] := by
  obtain _ | _ | _ | _ | i := i <;> first | rfl | omega

end Sys2Proof.Machine
end

