-- ==== Sys2Proof/Laws/Ops.lean ====
section
/-!
SUPPORT. What each shared operation can do, said once.
-/

namespace Sys2Proof.Machine

/-- The guard goes on exactly where the configuration is valid and no `SEND` is in progress. -/
theorem State.guarded_of_accepts {s : State} (h : s.Accepts) (a : Answer) : s.guarded a = a := by
  simp [State.guarded, h.1, h.2]

/-- An admitted answer is a next state only where the guard goes on. -/
theorem State.guarded_eq_next {s t : State} {a : Answer} : s.guarded a = .next t ↔ s.Accepts ∧ a = .next t := by
  unfold State.guarded State.Accepts
  cases h1 : s.cfg.valid <;> cases h2 : s.txen <;> simp

/-- Feeding bytes changes only the decoder and the results, and keeps the draw. -/
theorem State.feedBytes_frame (s : State) (bs : List Byte) :
    ∃ d added, s.feedBytes bs = { s with dec := d, obs := s.obs ++ added } ∧ added.length = bs.length := by
  induction bs generalizing s with
  | nil => exact ⟨s.dec, [], by simp [State.feedBytes], rfl⟩
  | cons b bs ih =>
    obtain ⟨d, added, h, hl⟩ := ih (s.feedByte b)
    refine ⟨d, .status (s.dec.feed s.cfg b).pstate.code :: added, ?_, by simp [hl]⟩
    rw [State.feedBytes, h]
    simp [State.feedByte, State.withStatus, State.record]

@[simp] theorem State.feedBytes_nil (s : State) : s.feedBytes [] = s := rfl

@[simp] theorem State.feedBytes_cons (s : State) (b : Byte) (bs : List Byte) :
    s.feedBytes (b :: bs) = (s.feedByte b).feedBytes bs := rfl

theorem State.feedBytes_append (s : State) (bs cs : List Byte) :
    s.feedBytes (bs ++ cs) = (s.feedBytes bs).feedBytes cs := by
  induction bs generalizing s with
  | nil => rfl
  | cons b bs ih => simp [ih]

@[simp] theorem State.feedBytes_cfg (s : State) (bs : List Byte) : (s.feedBytes bs).cfg = s.cfg := by
  obtain ⟨d, o, h, -⟩ := s.feedBytes_frame bs; simp [h]

@[simp] theorem State.feedBytes_txen (s : State) (bs : List Byte) : (s.feedBytes bs).txen = s.txen := by
  obtain ⟨d, o, h, -⟩ := s.feedBytes_frame bs; simp [h]

@[simp] theorem State.feedBytes_daisy (s : State) (bs : List Byte) : (s.feedBytes bs).daisy = s.daisy := by
  obtain ⟨d, o, h, -⟩ := s.feedBytes_frame bs; simp [h]

@[simp] theorem State.feedBytes_myAddress (s : State) (bs : List Byte) : (s.feedBytes bs).myAddress = s.myAddress := by
  obtain ⟨d, o, h, -⟩ := s.feedBytes_frame bs; simp [h]

/-- What every `FEED` keeps of the decoder, feeding bytes keeps. -/
theorem State.feedBytes_induct {P : Decoder → Prop} {s : State} (hstep : ∀ d b, P d → P (d.feed s.cfg b))
    (bs : List Byte) (h : P s.dec) : P (s.feedBytes bs).dec := by
  induction bs generalizing s with
  | nil => exact h
  | cons b bs ih => exact ih (s := s.feedByte b) hstep (hstep _ _ h)

/-- The timeout check either enters `TimedOut`, when late, or does nothing. -/
theorem Decoder.timeoutCheck_of_not_late {c : Config} {d : Decoder} (h : d.late c = false) : d.timeoutCheck c = d := by
  simp [Decoder.timeoutCheck, h]

theorem Decoder.timeoutCheck_of_late {c : Config} {d : Decoder} (h : d.late c = true) :
    d.timeoutCheck c = d.enterTerminal .timedOut := by
  simp [Decoder.timeoutCheck, h]

/-- A message is not late before the bound, nor outside a frame. -/
theorem Decoder.not_late_of_le {c : Config} {d : Decoder} (h : d.elapsed ≤ c.tMsg) : d.late c = false := by
  simp [Decoder.late, h]

theorem Decoder.not_late_of_outside {c : Config} {d : Decoder} (h : d.pstate.inFrame = false) : d.late c = false := by
  simp [Decoder.late, h]

/-- Everything one `FEED` can do to the decoder. -/
theorem Decoder.feed_cases (c : Config) (b : Byte) (d : Decoder) :
    (d.pstate.inFrame = false ∧ d.feed c b = d.outside c b) ∨
    (d.late c = true ∧ d.feed c b = (d.enterTerminal .timedOut).outside c b) ∨
    (d.pstate = .header ∧ d.elapsed ≤ c.tMsg ∧ d.feed c b = d.inHeader c b) ∨
    (d.pstate = .active ∧ d.elapsed ≤ c.tMsg ∧ d.feed c b = d.inActive c b) := by
  cases hl : d.late c with
  | true => exact .inr (.inl ⟨rfl, by simp [Decoder.feed, Decoder.timeoutCheck_of_late hl, Decoder.takeByte]⟩)
  | false =>
    have hf : d.feed c b = d.takeByte c b := by simp [Decoder.feed, Decoder.timeoutCheck_of_not_late hl]
    have hle : d.pstate.inFrame = true → d.elapsed ≤ c.tMsg := by
      intro h
      simpa [Decoder.late, h] using hl
    cases hp : d.pstate <;> simp [hf, Decoder.takeByte, hp, PState.inFrame]
    all_goals exact hle (by simp [hp, PState.inFrame])

/-- What R5 gives of a valid configuration. -/
theorem Config.valid_iff (c : Config) :
    c.valid = true ↔
      c.startByte ≠ c.endByte ∧ c.startByte ≠ c.escByte ∧ c.endByte ≠ c.escByte ∧ c.wildcard ≠ c.ctrlAddr ∧
        1 ≤ c.maxBody ∧ c.maxBody ≤ 254 ∧ 1 ≤ c.tMsg := by
  simp [Config.valid, and_assoc]

/-- A byte is outside `RES` exactly where it is none of the three (R92). -/
theorem Config.not_reserved_iff (c : Config) (b : Byte) :
    c.reserved b = false ↔ b ≠ c.startByte ∧ b ≠ c.endByte ∧ b ≠ c.escByte := by
  simp [Config.reserved, and_assoc]

/-- The checksum of one more byte is one more fold (R201). -/
theorem Config.checksum_append_singleton (c : Config) (xs : List Byte) (b : Byte) :
    c.checksum (xs ++ [b]) = c.fold (c.checksum xs) b := by
  simp [Config.checksum]

/-- Everything `outside(b)` can do (R131). -/
theorem Decoder.outside_cases (c : Config) (b : Byte) (d : Decoder) :
    (b = c.startByte ∧ d.outside c b = d.restart c) ∨ (b ≠ c.startByte ∧ d.outside c b = d) := by
  unfold Decoder.outside
  split
  · exact .inl ⟨‹_›, rfl⟩
  · exact .inr ⟨‹_›, rfl⟩

/-- Everything `hdr_store(b)` can do (R137, R138). -/
theorem Decoder.hdrStore_cases (c : Config) (b : Byte) (d : Decoder) :
    (d.hidx ≠ 3 ∧ d.hdrStore c b = d.hdrWrite c b) ∨
    (d.hidx = 3 ∧ c.badRange (d.hdr.set 3 b).destLow (d.hdr.set 3 b).destHigh = true ∧
      d.hdrStore c b = (d.hdrWrite c b).enterTerminal .ignored) ∨
    (d.hidx = 3 ∧ c.badRange (d.hdr.set 3 b).destLow (d.hdr.set 3 b).destHigh = false ∧
      d.hdrStore c b = { d.hdrWrite c b with pstate := .active }) := by
  by_cases h : d.hidx = 3
  · refine .inr ?_
    cases hb : c.badRange (d.hdr.set 3 b).destLow (d.hdr.set 3 b).destHigh <;>
      simp [h, hb, Decoder.hdrStore, Decoder.headerComplete]
  · exact .inl ⟨h, by simp [Decoder.hdrStore, h]⟩

/-- Everything `append(b)` can do (R140). -/
theorem Decoder.append_cases (c : Config) (b : Byte) (d : Decoder) :
    (d.n = c.rxCap ∧ d.append c b = d.enterTerminal .overflowed) ∨
    (d.n ≠ c.rxCap ∧
      d.append c b =
        { d with
          csacc := if 1 ≤ d.n then c.fold d.csacc (d.bufRead (d.n - 1)) else d.csacc
          data := d.bufWrite c d.n b, n := d.n + 1 }) := by
  unfold Decoder.append
  split
  · exact .inl ⟨‹_›, rfl⟩
  · exact .inr ⟨‹_›, rfl⟩

/-- Everything `close()` can do (R143). -/
theorem Decoder.close_cases (d : Decoder) :
    (1 ≤ d.n ∧ d.csacc = d.bufRead (d.n - 1) ∧ d.close = d.enterTerminal .ready) ∨
    ((d.n = 0 ∨ d.csacc ≠ d.bufRead (d.n - 1)) ∧ d.close = d.enterTerminal .aborted) := by
  unfold Decoder.close
  split
  · exact .inr ⟨.inl ‹_›, rfl⟩
  · split
    · exact .inl ⟨by omega, ‹_›, rfl⟩
    · exact .inr ⟨.inr ‹_›, rfl⟩

/-- Everything a byte can do in `Header` (R133 to R137). -/
theorem Decoder.inHeader_cases (c : Config) (b : Byte) (d : Decoder) :
    (d.esc = true ∧ d.inHeader c b = Decoder.hdrStore c b { d with esc := false }) ∨
    (d.esc = false ∧ b = c.escByte ∧ d.inHeader c b = { d with esc := true }) ∨
    (d.esc = false ∧ b = c.startByte ∧ d.inHeader c b = d.restart c) ∨
    (d.esc = false ∧ b = c.endByte ∧ d.inHeader c b = d.enterTerminal .ignored) ∨
    (d.esc = false ∧ c.reserved b = false ∧ d.inHeader c b = d.hdrStore c b) := by
  unfold Decoder.inHeader
  cases he : d.esc with
  | true => exact .inl ⟨rfl, by simp⟩
  | false =>
    by_cases h1 : b = c.escByte
    · exact .inr (.inl ⟨rfl, h1, by simp [h1]⟩)
    · by_cases h2 : b = c.startByte
      · exact .inr (.inr (.inl ⟨rfl, h2, by rw [if_neg (by simp), if_neg h1, if_pos h2]⟩))
      · by_cases h3 : b = c.endByte
        · exact .inr (.inr (.inr (.inl ⟨rfl, h3, by rw [if_neg (by simp), if_neg h1, if_neg h2, if_pos h3]⟩)))
        · exact .inr (.inr (.inr (.inr
            ⟨rfl, (Config.not_reserved_iff c b).2 ⟨h2, h3, h1⟩, by simp [h1, h2, h3]⟩)))

/-- Everything a byte can do in `Active` (R139 to R145). -/
theorem Decoder.inActive_cases (c : Config) (b : Byte) (d : Decoder) :
    (d.esc = true ∧ d.inActive c b = Decoder.append c b { d with esc := false }) ∨
    (d.esc = false ∧ b = c.escByte ∧ d.inActive c b = { d with esc := true }) ∨
    (d.esc = false ∧ b = c.endByte ∧ d.inActive c b = d.close) ∨
    (d.esc = false ∧ b ≠ c.escByte ∧ b ≠ c.endByte ∧ d.inActive c b = d.append c b) := by
  unfold Decoder.inActive
  cases d.esc <;> simp
  split <;> [simp_all; (split <;> simp_all)]

/-- Everything a `DC_STEP` can do to the FSM (R261 to R268). -/
theorem Daisy.step_cases (c : Config) (s0 s1 : Bool) (d : Daisy) :
    (d.dstate = .unconfigured ∧ d.step c s0 s1 = ⟨.awaitingEnable, none, false, false⟩) ∨
    (d.dstate = .awaitingEnable ∧ ∃ l,
      (l = .link0 ∧ s0 = true ∧ s1 = false ∨ l = .link1 ∧ s0 = false ∧ s1 = true ∨
        l = c.tieLink ∧ s0 = true ∧ s1 = true) ∧
      d.step c s0 s1 = { d with up := some l, dstate := .claimingAddress }) ∨
    (d.dstate = .enablingDownstream ∧ d.up = none ∧ d.step c s0 s1 = { d with dstate := .configured }) ∨
    (d.dstate = .enablingDownstream ∧ ∃ l, d.up = some l ∧
      d.step c s0 s1 = { d.assertLink l.other with dstate := .configured }) ∨
    (((d.dstate = .awaitingEnable ∧ s0 = false ∧ s1 = false) ∨ d.dstate = .claimingAddress ∨ d.dstate = .configured) ∧
      d.step c s0 s1 = d) := by
  unfold Daisy.step
  cases hd : d.dstate with
  | awaitingEnable => cases s0 <;> cases s1 <;> simp
  | enablingDownstream => cases hu : d.up <;> simp
  | unconfigured | claimingAddress | configured => simp

/-- `FEED` keeps the power-on draw. -/
theorem Decoder.feed_draw (c : Config) (b : Byte) (d : Decoder) : (d.feed c b).draw = d.draw := by
  have ho : ∀ e : Decoder, (e.outside c b).draw = e.draw := fun e => by
    unfold Decoder.outside; split <;> rfl
  have hs : ∀ e : Decoder, (e.hdrStore c b).draw = e.draw := fun e => by
    simp only [Decoder.hdrStore, Decoder.headerComplete]; split <;> [split; skip] <;> rfl
  have ha : ∀ e : Decoder, (e.append c b).draw = e.draw := fun e => by
    unfold Decoder.append; split <;> rfl
  obtain ⟨-, h⟩ | ⟨-, h⟩ | ⟨-, -, h⟩ | ⟨-, -, h⟩ := d.feed_cases c b <;> rw [h]
  · exact ho d
  · exact ho _
  · unfold Decoder.inHeader
    split
    · exact hs _
    · split
      · rfl
      · split
        · rfl
        · split
          · rfl
          · exact hs d
  · unfold Decoder.inActive
    split
    · exact ha _
    · split
      · rfl
      · split
        · unfold Decoder.close; split <;> [rfl; split <;> rfl]
        · exact ha d

/-- Emitting bytes moves only the transport's count, and completes exactly where the count covers them. -/
theorem State.emitAll_eq (s : State) (bs : List Byte) :
    s.emitAll bs =
      match s.credit with
      | none => some s
      | some k => if bs.length ≤ k then some { s with credit := some (k - bs.length) } else none := by
  induction bs generalizing s with
  | nil =>
    cases h : s.credit with
    | none => rfl
    | some k =>
      cases s
      simp_all [State.emitAll]
  | cons b bs ih =>
    cases h : s.credit with
    | none =>
      have : s.emit b = some s := by simp [State.emit, h]
      simp [State.emitAll, this, ih, h]
    | some k =>
      cases k with
      | zero => simp [State.emitAll, State.emit, h]
      | succ k =>
        have : s.emit b = some { s with credit := some k } := by simp [State.emit, h]
        simp only [State.emitAll, this, ih, List.length_cons, Nat.add_le_add_iff_right]
        split
        · congr 3
          omega
        · rfl

/-- `transmit` over a transport that completes every byte. -/
theorem State.transmit_of_credit {s : State} {xs : List Byte} (h : ∀ k, s.credit = some k → xs.length ≤ k) :
    s.transmit xs =
      .next
        { s with
          txen := false, obs := s.obs ++ [.trace (transportTrace xs)]
          credit := s.credit.map (· - xs.length) } := by
  unfold State.transmit
  rw [State.emitAll_eq]
  cases hc : s.credit with
  | none => simp [hc, State.setTxen, State.record]
  | some k => simp [hc, State.setTxen, State.record, h k hc]

/-- `transmit` over a transport that stops before the last byte. -/
theorem State.transmit_of_blocked {s : State} {xs : List Byte} {k : Nat} (hc : s.credit = some k) (hk : k < xs.length) :
    s.transmit xs = .fault .transportBlocked := by
  unfold State.transmit
  rw [State.emitAll_eq]
  simp [hc, Nat.not_le.2 hk]

end Sys2Proof.Machine
end

