-- ==== Sys2Proof/Laws/Exec.lean ====
section
/-!
SUPPORT. Everything one event can do, said once: the provers cite this instead of unfolding `exec`.
-/

namespace Sys2Proof.Machine

/-- A wire unit is the `FEED`s of its bytes under the guard. -/
theorem exec_of_fedBytes {i : Instr} {s : State} (h : fedBytes s.cfg i ≠ []) :
    exec i s = s.guarded (.next (s.feedBytes (fedBytes s.cfg i))) := by
  cases i <;> first | rfl | exact absurd rfl h

/-- What an event whose answer is a next state has done. -/
inductive Effect (s : State) : Instr → State → Prop where
  | feeds (i : Instr) (h : fedBytes s.cfg i ≠ []) : Effect s i (s.feedBytes (fedBytes s.cfg i))
  | poll : Effect s .poll (s.withStatus (s.dec.timeoutCheck s.cfg))
  | tick : Effect s .tick { s with dec := s.dec.tick s.cfg }
  | reset : Effect s .reset { s with dec := s.dec.toIdle s.cfg }
  | readMsg (h : s.dec.pstate = .ready) :
      Effect s .readMsg (s.record (.message s.dec.message s.dec.messageChecksum))
  | send (m : Message) (h : m.body.length ≤ s.cfg.maxBody)
      (hc : ∀ k, s.credit = some k → (s.cfg.encodeFrame m).length ≤ k) :
      Effect s (.send m)
        { s with
          obs := s.obs ++ [.trace (transportTrace (s.cfg.encodeFrame m))]
          credit := s.credit.map (· - (s.cfg.encodeFrame m).length) }
  | matchRange (lo hi a : Byte) :
      Effect s (.matchRange lo hi a) (s.record (.matched (s.cfg.matchAddr lo hi a)))
  | dcStep (s0 s1 : Bool) : Effect s (.dcStep s0 s1) { s with daisy := s.daisy.step s.cfg s0 s1 }
  | grantTaken (a : Byte) (h : s.daisy.dstate = .claimingAddress) (ha : a ≠ s.cfg.ctrlAddr)
      (h0 : a ≠ 0) :
      Effect s (.dcGrant a) { s with myAddress := a, daisy := { s.daisy with dstate := .enablingDownstream } }
  | grantIgnored (a : Byte) (h : ¬(s.daisy.dstate = .claimingAddress ∧ a ≠ s.cfg.ctrlAddr ∧ a ≠ 0)) :
      Effect s (.dcGrant a) s
  | por :
      Effect s .por
        { s with
          dec := s.dec.powerOn s.cfg, txen := false
          daisy := { dstate := .unconfigured, up := none, drive0 := false, drive1 := false }
          myAddress := 0 }

/-- An event answers a next state exactly where the block accepts events and the event has that effect. -/
theorem exec_eq_next_iff {i : Instr} {s t : State} : exec i s = .next t ↔ s.Accepts ∧ Effect s i t := by
  by_cases hf : fedBytes s.cfg i = []
  · cases i with
    | poll | tick | reset | matchRange | dcStep | por =>
      simp only [exec, execPoll, execTick, execReset, execMatchRange, execDcStep, execPor, State.guarded_eq_next]
      refine and_congr_right fun _ => ⟨fun h => ?_, fun h => ?_⟩
      · cases h
        constructor
      · cases h with
        | feeds h => exact absurd hf ‹_›
        | _ => rfl
    | readMsg =>
      simp only [exec, execReadMsg, State.guarded_eq_next]
      refine and_congr_right fun _ => ⟨fun h => ?_, fun h => ?_⟩
      · split at h
        · cases h
          exact .readMsg ‹_›
        · cases h
      · cases h with
        | feeds h => exact absurd hf ‹_›
        | readMsg h => simp [h]
    | send m =>
      simp only [exec, execSend, State.guarded_eq_next]
      refine and_congr_right fun ha => ⟨fun h => ?_, fun h => ?_⟩
      · split at h
        · cases h
        · by_cases hc : ∀ k, s.credit = some k → (s.cfg.encodeFrame m).length ≤ k
          · rw [State.transmit_of_credit hc] at h
            cases h
            have : s.txen = false := ha.2
            have he := Effect.send (s := s) m (by omega) hc
            simpa [this] using he
          · simp only [not_forall, Nat.not_le] at hc
            obtain ⟨k, hk, hlt⟩ := hc
            rw [State.transmit_of_blocked hk hlt] at h
            cases h
      · cases h with
        | feeds h => exact absurd hf ‹_›
        | send _ h hc => rw [if_neg (by omega), State.transmit_of_credit hc]; simp [ha.2]
    | dcGrant a =>
      simp only [exec, execDcGrant, State.guarded_eq_next]
      refine and_congr_right fun _ => ⟨fun h => ?_, fun h => ?_⟩
      · split at h
        · cases h
          rename_i hc
          exact .grantTaken a hc.1 hc.2.1 hc.2.2
        · cases h
          exact .grantIgnored a ‹_›
      · cases h with
        | feeds h => exact absurd hf ‹_›
        | grantTaken _ h ha h0 => rw [if_pos ⟨h, ha, h0⟩]
        | grantIgnored _ h => simp only [h, if_false]
    | _ => simp [fedBytes, Config.escape, Config.encodeFrame] at hf <;> split at hf <;> simp at hf
  · rw [exec_of_fedBytes hf, State.guarded_eq_next]
    refine and_congr_right fun _ => ⟨fun h => ?_, fun h => ?_⟩
    · cases h
      exact .feeds i hf
    · cases h with
      | feeds _ _ => rfl
      | _ => exact absurd rfl hf

/-- A step that goes on has waited, or has run the first pending event. -/
theorem step_eq_next_iff {s t : State} :
    step s = .next t ↔
      s.cfg.valid = true ∧
        ((s.pending = [] ∧ t = s) ∨
          ∃ p rest i, s.pending = p :: rest ∧ decode s.cfg p = .instr i ∧
            exec i { s with pending := rest } = .next t) := by
  unfold step
  cases hv : s.cfg.valid
  · simp
  · cases hp : s.pending with
    | nil => simp [eq_comm]
    | cons p rest =>
      cases hd : decode s.cfg p with
      | instr i => simp [hd]
      | reject r => simp [hd]

end Sys2Proof.Machine
end

