-- ==== Sys2Proof/Laws/Chain.lean ====
section
/-!
SUPPORT. What one move of a chain, and one event of a history, can do, said once.
-/

namespace Sys2Proof.Machine

/-- A move goes on exactly in a composed chain whose nodes and enable it can act on. -/
theorem Chain.move_eq_some_iff {c d : Chain} {m : ChainMove} : c.move m = some d ↔ c.composed = true ∧ c.act m = some d := by
  simp [Chain.move]

/-- An event at node `k` goes on exactly where there is such a node and its block goes on, and changes that block alone. -/
theorem Chain.runAt_eq_some_iff {c d : Chain} {k : Nat} {i : Instr} :
    c.runAt k i = some d ↔
      ∃ x t, c.nodes[k]? = some x ∧ exec i x.block = .next t ∧
        d = { c with nodes := c.nodes.set k { x with block := t } } := by
  unfold Chain.runAt
  cases hx : c.nodes[k]? with
  | none => simp
  | some x => cases he : exec i x.block <;> simp [he, eq_comm]

/-- Everything one move of a chain can do. -/
theorem Chain.act_cases {c d : Chain} {m : ChainMove} (h : c.act m = some d) :
    (∃ v, m = .setEnable v ∧ d = { c with enable := v }) ∨
    (∃ k x t, m = .dcStep k ∧ c.nodes[k]? = some x ∧ exec (c.sample k x) x.block = .next t ∧
      d = { c with nodes := c.nodes.set k { x with block := t } }) ∨
    (∃ k i x t, m = .event k i ∧ Instr.isDcStep i = false ∧ c.nodes[k]? = some x ∧ exec i x.block = .next t ∧
      d = { c with nodes := c.nodes.set k { x with block := t } }) := by
  cases m with
  | setEnable v => exact .inl ⟨v, rfl, by simpa [Chain.act] using h.symm⟩
  | dcStep k =>
    cases hx : c.nodes[k]? with
    | none => simp [Chain.act, hx] at h
    | some x =>
      simp only [Chain.act, hx] at h
      obtain ⟨y, t, hy, ht, rfl⟩ := Chain.runAt_eq_some_iff.1 h
      obtain rfl : x = y := Option.some.inj (hx.symm.trans hy)
      exact .inr (.inl ⟨k, x, t, rfl, hx, ht, rfl⟩)
  | event k i =>
    cases hi : Instr.isDcStep i with
    | true => simp [Chain.act, hi] at h
    | false =>
      simp only [Chain.act, hi, Bool.false_eq_true, if_false] at h
      obtain ⟨x, t, hx, ht, rfl⟩ := Chain.runAt_eq_some_iff.1 h
      exact .inr (.inr ⟨k, i, x, t, rfl, hi, hx, ht, rfl⟩)

@[simp] theorem Chain.run_nil (c : Chain) : c.run [] = some c := rfl

/-- A run of a chain goes on exactly where its first move does and the rest runs from there. -/
theorem Chain.run_cons_eq_some_iff {c e : Chain} {m : ChainMove} {ms : List ChainMove} :
    c.run (m :: ms) = some e ↔ ∃ d, c.move m = some d ∧ d.run ms = some e := by
  rw [Chain.run]
  cases c.move m <;> simp

@[simp] theorem happenings_nil (s : State) : happenings s [] = [] := rfl

/-- An event that goes on is the first happening of the rest. -/
theorem happenings_cons_of_next {s t : State} {i : Instr} {is : List Instr} (h : exec i s = .next t) :
    happenings s (i :: is) = ⟨s, i, t⟩ :: happenings t is := by
  simp [happenings, h]

end Sys2Proof.Machine
end

