-- ==== Sys2Proof/Laws/PerInstr.lean ====
section
/-!
SUPPORT. Facts of the syntax proved one constructor at a time.
WireLength: the wire bytes of a well-formed instruction are at most the longest frame, `2 + 2 * (5 + MAX_BODY)` (R96).
-/

namespace Sys2Proof.Machine

/-- An escaped byte list at most doubles. -/
theorem length_flatMap_escape_le (c : Config) (xs : List Byte) : (xs.flatMap c.escape).length ≤ 2 * xs.length := by
  induction xs with
  | nil => simp
  | cons x xs ih =>
    have hx : (c.escape x).length ≤ 2 := by unfold Config.escape; split <;> simp
    simp only [List.flatMap_cons, List.length_append, List.length_cons]
    omega

end Sys2Proof.Machine

namespace Sys2Proof.Laws.WireLength

/-- The wire bytes of a well-formed `i` number at most `2 + 2 * (5 + MAX_BODY)`. -/
def Statement (i : Instr) : Prop :=
  ∀ c : Config, WellFormed c i = true → (Machine.fedBytes c i).length ≤ 2 + 2 * (5 + c.maxBody)

/-- One escaped byte is within the bound. -/
theorem of_escape (c : Config) (x : Byte) : (c.escape x).length ≤ 2 + 2 * (5 + c.maxBody) := by
  have := Machine.length_flatMap_escape_le c [x]
  simp only [List.flatMap_cons, List.flatMap_nil, List.append_nil, List.length_singleton] at this
  omega

theorem startMark : Statement .startMark := fun c _ => by simp [Machine.fedBytes]; omega
theorem endMark : Statement .endMark := fun c _ => by simp [Machine.fedBytes]; omega
theorem escMark : Statement .escMark := fun c _ => by simp [Machine.fedBytes]; omega
theorem data (d : Byte) : Statement (.data d) := fun c _ => by simp [Machine.fedBytes]; omega
theorem escStart : Statement .escStart := fun c _ => by simp [Machine.fedBytes]
theorem escEnd : Statement .escEnd := fun c _ => by simp [Machine.fedBytes]
theorem escEsc : Statement .escEsc := fun c _ => by simp [Machine.fedBytes]
theorem escData (d : Byte) : Statement (.escData d) := fun c _ => by simp [Machine.fedBytes]
theorem frameDestLow (x : Byte) : Statement (.frameDestLow x) := fun c _ => of_escape c x
theorem frameDestHigh (x : Byte) : Statement (.frameDestHigh x) := fun c _ => of_escape c x
theorem frameSource (x : Byte) : Statement (.frameSource x) := fun c _ => of_escape c x
theorem frameType (x : Byte) : Statement (.frameType x) := fun c _ => of_escape c x
theorem frameBody (x : Byte) : Statement (.frameBody x) := fun c _ => of_escape c x
theorem frameChecksum (x : Byte) : Statement (.frameChecksum x) := fun c _ => of_escape c x

theorem frame (m : Message) : Statement (.frame m) := fun c h => by
  have hl : m.body.length ≤ c.maxBody := by simpa [WellFormed] using h
  have := Machine.length_flatMap_escape_le c (m.fields ++ [c.checksum m.fields])
  simp only [Message.fields, List.length_append, List.length_cons, List.length_nil] at this
  simp only [Machine.fedBytes, Config.encodeFrame, Message.fields, List.length_append, List.length_cons, List.length_nil]
  omega

theorem feed (b : Byte) : Statement (.feed b) := fun c _ => by simp [Machine.fedBytes]; omega
theorem poll : Statement .poll := fun c _ => by simp [Machine.fedBytes]
theorem tick : Statement .tick := fun c _ => by simp [Machine.fedBytes]
theorem reset : Statement .reset := fun c _ => by simp [Machine.fedBytes]
theorem readMsg : Statement .readMsg := fun c _ => by simp [Machine.fedBytes]
theorem send (m : Message) : Statement (.send m) := fun c _ => by simp [Machine.fedBytes]
theorem matchRange (lo hi a : Byte) : Statement (.matchRange lo hi a) := fun c _ => by simp [Machine.fedBytes]
theorem dcStep (s0 s1 : Bool) : Statement (.dcStep s0 s1) := fun c _ => by simp [Machine.fedBytes]
theorem dcGrant (a : Byte) : Statement (.dcGrant a) := fun c _ => by simp [Machine.fedBytes]
theorem por : Statement .por := fun c _ => by simp [Machine.fedBytes]

end Sys2Proof.Laws.WireLength
end

