-- ==== Sys2Proof/Tests/Slice0.lean ====
section
/-!
SUPPORT. Small tests, each of one event or one function, with the expected values of spec/95_test_vectors.md or of the
rules' own examples, and for each statement with hypotheses a witness that meets them.
-/

namespace Sys2Proof.Tests

open Sys2Proof.Machine

/-- The default configuration with `T_MSG = 2`, as the timeout vectors use it, for a chain of two nodes. -/
def cfg2 : Config := { Config.default with tMsg := 2, nNodes := 2 }

/-- After `POR`. -/
def fresh : State := { State.reset with cfg := cfg2 }

/-- `fresh` with another decoder state. -/
def at_ (d : Decoder) : State := { fresh with dec := d }

/-- In `Header` after the bytes 03 03 00 (V-DEC-8). -/
def inHeader3 : State :=
  at_ { fresh.dec with
    pstate := .header, hidx := 3, csacc := 0x0A, hdr := { destLow := 3, destHigh := 3, source := 0, type := 0 } }

/-- In `Header` after `START` alone (V-DEC-3). -/
def inHeader0 : State := at_ { fresh.dec with pstate := .header }

/-- In `Active` after the header 03 03 00 05. -/
def inActive : State :=
  at_ { fresh.dec with
    pstate := .active, hidx := 4, csacc := 0x11, hdr := { destLow := 3, destHigh := 3, source := 0, type := 5 } }

/-- `inActive` after the data byte `b`. -/
def inActive1 (b : Byte) : State := at_ { inActive.dec with n := 1, data := [(0, b)] }

/-- `inActive` with the whole buffer filled with 41 (as V-DEC-19). -/
def inActiveFull : State :=
  at_ { inActive.dec with n := 11, data := (List.range 11).map fun i => (i, 0x41) }

/-- Claiming, with link 1 upstream (V-DC-4). -/
def claiming : State :=
  { fresh with daisy := { dstate := .claimingAddress, up := some .link1, drive0 := false, drive1 := false } }

/-- What a next state shows, none for a stop. -/
def look {α : Type} (f : State → α) : Answer → Option α
  | .next t => some (f t)
  | .fault _ => none
  | .refused _ => none

/-- The refusal of an answer, if it is one. -/
def refusalOf : Answer → Option Refusal
  | .refused r => some r
  | .next _ => none
  | .fault _ => none

/-- The fault of an answer, if it is one. -/
def faultOf : Answer → Option Fault
  | .fault f => some f
  | .next _ => none
  | .refused _ => none

/-- The decoder fields in which the vectors give an end state. -/
structure Fields where
  pstate : PState
  esc : Bool
  hidx : Nat
  n : Nat
  csacc : Byte
  elapsed : Nat
  deriving DecidableEq, Repr

/-- The decoder fields of the vectors. -/
def fields (s : State) : Fields :=
  ⟨s.dec.pstate, s.dec.esc, s.dec.hidx, s.dec.n, s.dec.csacc, s.dec.elapsed⟩

-- ---- well-formedness: an ill-formed term for each check ----

theorem test_wf_refuses_reserved_data : WellFormed cfg2 (.data 0x3E) = false := by decide
theorem test_wf_refuses_reserved_escaped_data : WellFormed cfg2 (.escData 0x0A) = false := by decide
theorem test_wf_refuses_long_frame : WellFormed cfg2 (.frame ⟨1, 1, 0, 0, List.replicate 11 0⟩) = false := by decide
theorem test_wf_refuses_long_send : WellFormed cfg2 (.send ⟨1, 1, 0, 0, List.replicate 11 0⟩) = false := by decide

-- ---- decoding: words written out from the tables of 30_encoding.md and spec/opcode_table.json ----

theorem test_decode_wire_bytes :
    decode cfg2 (.wire [0b00111110]) = .instr .startMark ∧ decode cfg2 (.wire [0b00001010]) = .instr .endMark ∧
    decode cfg2 (.wire [0b01011100]) = .instr .escMark ∧ decode cfg2 (.wire [0b01000001]) = .instr (.data 0x41) := by
  decide

theorem test_decode_pairs :
    decode cfg2 (.wire [0b01011100, 0b00111110]) = .instr .escStart ∧
    decode cfg2 (.wire [0b01011100, 0b00001010]) = .instr .escEnd ∧
    decode cfg2 (.wire [0b01011100, 0b01011100]) = .instr .escEsc ∧
    decode cfg2 (.wire [0b01011100, 0b01000001]) = .instr (.escData 0x41) := by
  decide

theorem test_decode_fields :
    decode cfg2 (.field .destLow [3]) = .instr (.frameDestLow 3) ∧
    decode cfg2 (.field .destHigh [0xFF]) = .instr (.frameDestHigh 0xFF) ∧
    decode cfg2 (.field .source [0x5C, 0x3E]) = .instr (.frameSource 0x3E) ∧
    decode cfg2 (.field .type [0x5C, 0x5C]) = .instr (.frameType 0x5C) ∧
    decode cfg2 (.field .body [0x5C, 0x0A]) = .instr (.frameBody 0x0A) ∧
    decode cfg2 (.field .checksum [0x96]) = .instr (.frameChecksum 0x96) := by
  decide

/-- V-ENC-1. -/
theorem test_decode_frame :
    decode cfg2 (.wire [0x3E, 0x03, 0x03, 0x00, 0x05, 0x5C, 0x0A, 0x14, 0x1E, 0x96, 0x0A]) =
      .instr (.frame ⟨3, 3, 0, 5, [0x0A, 0x14, 0x1E]⟩) := by
  decide

theorem test_decode_decoder_events :
    decode cfg2 (.event .feed [.byte 0x41]) = .instr (.feed 0x41) ∧ decode cfg2 (.event .poll []) = .instr .poll ∧
    decode cfg2 (.event .tick []) = .instr .tick ∧ decode cfg2 (.event .reset []) = .instr .reset ∧
    decode cfg2 (.event .readMsg []) = .instr .readMsg := by
  decide

theorem test_decode_other_events :
    decode cfg2 (.event .send [.byte 1, .byte 0xFF, .byte 7, .byte 1]) = .instr (.send ⟨1, 0xFF, 7, 1, []⟩) ∧
    decode cfg2 (.event .matchRange [.byte 5, .byte 10, .byte 7]) = .instr (.matchRange 5 10 7) ∧
    decode cfg2 (.event .dcStep [.bit false, .bit true]) = .instr (.dcStep false true) ∧
    decode cfg2 (.event .dcGrant [.byte 4]) = .instr (.dcGrant 4) ∧ decode cfg2 (.event .por []) = .instr .por := by
  decide

theorem test_decode_rejects_by_name :
    decode cfg2 (.wire []) = .reject .emptyUnit ∧ decode cfg2 (.wire [0x41, 0x41]) = .reject .notAnEscapedPair ∧
    decode cfg2 (.wire [0x3E, 0x01, 0x01]) = .reject .notAFrame ∧
    decode cfg2 (.wire [0x3E, 0x01, 0x01, 0x0A]) = .reject .frameTooShort ∧
    decode cfg2 (.wire [0x3E, 0x03, 0x03, 0x00, 0x05, 0x10, 0x0A]) = .reject .frameChecksumWrong ∧
    decode cfg2 (.wire ([0x3E, 1, 1, 0, 5] ++ List.replicate 12 0x41 ++ [0x0A])) = .reject .frameBodyTooLong ∧
    decode cfg2 (.field .body [0x5C, 0x41]) = .reject .notAField ∧
    decode cfg2 (.event .dcStep [.bit false]) = .reject .wrongOperands := by
  decide

-- ---- the byte-level helpers ----

/-- R200's examples. -/
theorem test_rotl8 : rotl8 0x81 1 = 0x03 ∧ rotl8 0x11 1 = 0x22 := by decide

/-- V-CS-1, V-CS-4, V-CS-5, V-CS-10, V-CS-11. -/
theorem test_checksum :
    cfg2.checksum [] = 0x00 ∧ cfg2.checksum [1, 2] = 0x00 ∧
    cfg2.checksum [0x03, 0x03, 0x00, 0x05, 0x0A, 0x14, 0x1E] = 0x96 ∧
    cfg2.checksum [0x01, 0xFF, 0x07, 0x01] = 0xF8 ∧
    cfg2.checksum [0x01, 0x01, 0x3E, 0x5C, 0x0A, 0x3E, 0x5C, 0x41] = 0x93 := by
  decide

/-- V-CS-6. -/
theorem test_checksum_with_seed :
    Config.checksum { cfg2 with csSeed := 0xA5 } [0x03, 0x03, 0x00, 0x05, 0x0A, 0x14, 0x1E] = 0x44 := by decide

/-- V-ENC-3 and V-ENC-9. -/
theorem test_encode_frame :
    cfg2.encodeFrame ⟨1, 1, 0x3E, 0x5C, [0x0A, 0x3E, 0x5C, 0x41]⟩ =
      [0x3E, 0x01, 0x01, 0x5C, 0x3E, 0x5C, 0x5C, 0x5C, 0x0A, 0x5C, 0x3E, 0x5C, 0x5C, 0x41, 0x93, 0x0A] ∧
    cfg2.encodeFrame ⟨5, 3, 0, 5, [0x01]⟩ = [0x3E, 0x05, 0x03, 0x00, 0x05, 0x01, 0x43, 0x0A] := by
  decide

-- ---- one event at a time ----

/-- V-DEC-3, and V-DEC-1's 5C. -/
theorem test_feed_outside :
    look fields (exec (.feed 0x3E) fresh) = some ⟨.header, false, 0, 0, 0x00, 0⟩ ∧
    look fields (exec (.feed 0x5C) fresh) = some ⟨.idle, false, 0, 0, 0x00, 0⟩ := by
  decide

/-- R137's example: after 03 03 00 05, csacc is 11. -/
theorem test_feed_fourth_header_byte :
    look fields (exec (.feed 0x05) inHeader3) = some ⟨.active, false, 4, 0, 0x11, 0⟩ := by decide

/-- START restarts in Header (R135) and is data in Active (R144). -/
theorem test_startMark :
    look fields (exec .startMark inHeader3) = some ⟨.header, false, 0, 0, 0x00, 0⟩ ∧
    look fields (exec .startMark inActive) = some ⟨.active, false, 4, 1, 0x11, 0⟩ := by
  decide

/-- END in Header is V-DEC-7; END after the right checksum byte is V-DEC-17. -/
theorem test_endMark :
    look fields (exec .endMark inHeader0) = some ⟨.ignored, false, 0, 0, 0x00, 0⟩ ∧
    look fields (exec .endMark (inActive1 0x11)) = some ⟨.ready, false, 4, 1, 0x11, 0⟩ := by
  decide

/-- END after a wrong checksum byte is V-DEC-16; END with no data byte is V-DEC-15. -/
theorem test_endMark_aborts :
    look fields (exec .endMark (inActive1 0x05)) = some ⟨.aborted, false, 4, 1, 0x11, 0⟩ ∧
    look fields (exec .endMark inActive) = some ⟨.aborted, false, 4, 0, 0x11, 0⟩ := by
  decide

/-- ESC is pending in Header and in Active (R134, R141). -/
theorem test_escMark :
    look fields (exec .escMark inHeader0) = some ⟨.header, true, 0, 0, 0x00, 0⟩ ∧
    look fields (exec .escMark inActive) = some ⟨.active, true, 4, 0, 0x11, 0⟩ := by
  decide

/-- V-DEC-14, and V-DEC-20's overflow. -/
theorem test_data :
    look fields (exec (.data 0x0B) inActive) = some ⟨.active, false, 4, 1, 0x11, 0⟩ ∧
    look (fun t => (t.dec.pstate, t.dec.n)) (exec (.data 0x41) inActiveFull) = some (.overflowed, 11) := by
  decide

/-- The escaped bytes are taken literally (R133, R139; V-DEC-13). -/
theorem test_pairs :
    look (fun t => t.dec.bufRead 0) (exec .escStart inActive) = some 0x3E ∧
    look (fun t => t.dec.bufRead 0) (exec .escEnd inActive) = some 0x0A ∧
    look (fun t => t.dec.bufRead 0) (exec .escEsc inActive) = some 0x5C ∧
    look (fun t => t.dec.bufRead 0) (exec (.escData 0x41) inActive) = some 0x41 := by
  decide

/-- The position is the decoder's own (R90): the first header field is destLow. -/
theorem test_header_fields :
    look (fun t => t.dec.hdr.destLow) (exec (.frameDestLow 0x0A) inHeader0) = some 0x0A ∧
    look (fun t => t.dec.hdr.destHigh)
      (exec (.frameDestHigh 0xFF) (at_ { inHeader0.dec with hidx := 1 })) = some 0xFF ∧
    look (fun t => t.dec.hdr.source)
      (exec (.frameSource 0x3E) (at_ { inHeader0.dec with hidx := 2 })) = some 0x3E ∧
    look (fun t => (t.dec.pstate, t.dec.hdr.type)) (exec (.frameType 0x05) inHeader3) = some (.active, 0x05) := by
  decide

theorem test_body_and_checksum_fields :
    look (fun t => (t.dec.n, t.dec.bufRead 0)) (exec (.frameBody 0x0A) inActive) = some (1, 0x0A) ∧
    look (fun t => (t.dec.csacc, t.dec.bufRead 1)) (exec (.frameChecksum 0x3E) (inActive1 0x0A)) = some (0x28, 0x3E) := by
  decide

/-- V-ENC-1 decodes to Ready with its checksum (L1.2 b); V-ENC-9 has an invalid range (V-DEC-10). -/
theorem test_frame :
    look fields (exec (.frame ⟨3, 3, 0, 5, [0x0A, 0x14, 0x1E]⟩) fresh) = some ⟨.ready, false, 4, 4, 0x96, 0⟩ ∧
    look fields (exec (.frame ⟨5, 3, 0, 5, [0x01]⟩) fresh) = some ⟨.ignored, false, 4, 0, 0x21, 0⟩ := by
  decide

/-- V-TO-1 and V-TO-3: two ticks are not late, three are. -/
theorem test_poll :
    look (fun t => t.dec.pstate) (exec .poll (at_ { inHeader0.dec with elapsed := 2 })) = some .header ∧
    look (fun t => (t.dec.pstate, t.obs)) (exec .poll (at_ { inHeader0.dec with elapsed := 3 })) =
      some (.timedOut, [.status 7]) := by
  decide

/-- V-TO-4 and V-TO-5: not armed in Idle, saturated at T_MSG + 1. -/
theorem test_tick :
    look (fun t => t.dec.elapsed) (exec .tick fresh) = some 0 ∧
    look (fun t => t.dec.elapsed) (exec .tick (at_ { inHeader0.dec with elapsed := 2 })) = some 3 ∧
    look (fun t => t.dec.elapsed) (exec .tick (at_ { inHeader0.dec with elapsed := 3 })) = some 3 := by
  decide

/-- V-DEC-24. -/
theorem test_reset : look fields (exec .reset inHeader3) = some ⟨.idle, false, 0, 0, 0x00, 0⟩ := by decide

/-- V-DEC-17's message, and V-DEC-25's refusal. -/
theorem test_readMsg :
    look (fun t => t.obs) (exec .readMsg (at_ { (inActive1 0x11).dec with pstate := .ready })) =
      some [.message ⟨3, 3, 0, 5, []⟩ 0x11] ∧
    refusalOf (exec .readMsg fresh) = some .readOutsideReady := by
  decide

/-- V-SEND-1. -/
theorem test_send :
    look (fun t => (t.txen, t.obs)) (exec (.send ⟨1, 0xFF, 7, 1, []⟩) fresh) =
      some (false, [.trace [.txen true, .byte 0x3E, .byte 0x01, .byte 0xFF, .byte 0x07, .byte 0x01, .byte 0xF8,
        .byte 0x0A, .txen false]]) := by
  decide

/-- V-ENC-10, and a transport that takes six of the seven bytes (R354). -/
theorem test_send_stops :
    refusalOf (exec (.send ⟨1, 1, 0, 5, List.replicate 11 0⟩) fresh) = some .sendBodyTooLong ∧
    faultOf (exec (.send ⟨1, 0xFF, 7, 1, []⟩) { fresh with credit := some 6 }) = some .transportBlocked := by
  decide

/-- V-MATCH-1, 2, 5, 6, 8, 9, 11, and R241 under another `CTRL_ADDR`. -/
theorem test_match :
    cfg2.matchAddr 5 10 7 = true ∧ cfg2.matchAddr 5 10 11 = false ∧ cfg2.matchAddr 5 0xFF 200 = true ∧
    cfg2.matchAddr 5 0xFF 4 = false ∧ cfg2.matchAddr 0 5 3 = false ∧ cfg2.matchAddr 5 3 4 = false ∧
    cfg2.matchAddr 7 7 0 = false ∧ Config.matchAddr { cfg2 with ctrlAddr := 7 } 0 5 0 = false := by
  decide

/-- V-MATCH-3 through the event. -/
theorem test_matchRange : look (fun t => t.obs) (exec (.matchRange 5 10 10) fresh) = some [.matched true] := by decide

/-- V-DC-1, and V-DC-4's second step. -/
theorem test_dcStep_before_claim :
    look (fun t => t.daisy) (exec (.dcStep true true) fresh) = some ⟨.awaitingEnable, none, false, false⟩ ∧
    look (fun t => t.daisy) (exec (.dcStep false true)
      { fresh with daisy := ⟨.awaitingEnable, none, false, false⟩ }) = some ⟨.claimingAddress, some .link1, false, false⟩ := by
  decide

/-- V-DC-5's tie, and V-DC-9. -/
theorem test_dcStep_tie_and_enable :
    look (fun t => t.daisy.up) (exec (.dcStep true true)
      { fresh with daisy := ⟨.awaitingEnable, none, false, false⟩ }) = some (some .link0) ∧
    look (fun t => t.daisy) (exec (.dcStep false true)
      { fresh with daisy := ⟨.enablingDownstream, some .link1, false, false⟩ }) =
        some ⟨.configured, some .link1, true, false⟩ := by
  decide

/-- V-DC-7 and V-DC-8. -/
theorem test_dcGrant :
    look (fun t => (t.daisy.dstate, t.myAddress)) (exec (.dcGrant 0) claiming) = some (.claimingAddress, 0) ∧
    look (fun t => (t.daisy.dstate, t.myAddress)) (exec (.dcGrant 4) claiming) = some (.enablingDownstream, 4) := by
  decide

/-- Under `CTRL_ADDR = 7` a grant of 7 (R265) and one of 0 (D33) are ignored. -/
theorem test_dcGrant_other_controller :
    look (fun t => (t.daisy.dstate, t.myAddress)) (exec (.dcGrant 0) { claiming with cfg := { cfg2 with ctrlAddr := 7 } }) =
      some (.claimingAddress, 0) ∧
    look (fun t => (t.daisy.dstate, t.myAddress)) (exec (.dcGrant 7) { claiming with cfg := { cfg2 with ctrlAddr := 7 } }) =
      some (.claimingAddress, 0) := by
  decide

theorem test_por :
    look (fun t => (fields t, t.daisy, t.myAddress)) (exec .por { claiming with dec := inHeader3.dec, myAddress := 4 }) =
      some (⟨.idle, false, 0, 0, 0x00, 0⟩, ⟨.unconfigured, none, false, false⟩, 0) := by
  decide

/-- `POR` leaves what `State.reset` starts from, but for the draw (R340). -/
theorem test_reset_is_por :
    look (fun t => (fields t, t.dec.data, t.txen, t.daisy, t.myAddress)) (exec .por fresh) =
      some (fields State.reset, State.reset.dec.data, State.reset.txen, State.reset.daisy, State.reset.myAddress) := by
  decide

/-- An event while `txen = 1` is refused (R352), and one under a configuration that breaks R5. -/
theorem test_refusals :
    refusalOf (exec .tick { fresh with txen := true }) = some .feedDuringSend ∧
    refusalOf (exec .tick { fresh with cfg := { cfg2 with endByte := 0x3E } }) = some .badConfiguration := by
  decide

/-- The first step from reset, with `T_MSG` open. -/
theorem test_first_step_from_reset :
    look (fun t => t.dec.pstate) (step (State.reset.withFetchWord 8 0x3E)) = some .header ∧
    look (fun t => t.dec.pstate) (step (State.reset.withFetchWord 16 0x5C3E)) = some .header := by
  decide

/-- `Ready` with the message of V-DEC-17. -/
def inReady : State := at_ { (inActive1 0x11).dec with pstate := .ready }

/-- R350: the message is read, and then the decoder is reset, before the next `START`. -/
theorem test_duty_consumes_ready :
    consumesReady false (history inReady [.readMsg, .matchRange 3 3 3, .reset, .startMark]) = true ∧
    consumesReady false (history inReady [.readMsg, .startMark]) = false ∧
    consumesReady false (history inReady [.reset, .startMark]) = false ∧
    consumesReady false (history inReady [.startMark]) = false := by
  decide

/-- R351, the same for a unit as for its bytes: V-ENC-9's range is invalid at its fourth header byte. -/
theorem test_duty_resets_after_error :
    resetsAfterError (history (at_ { fresh.dec with pstate := .aborted }) [.reset, .poll]) = true ∧
    resetsAfterError (history (at_ { fresh.dec with pstate := .aborted }) [.poll]) = false ∧
    resetsAfterError (history fresh [.frame ⟨5, 3, 0, 5, [0x01]⟩, .reset]) = false ∧
    resetsAfterError (history fresh [.startMark, .data 5, .data 3, .data 0, .data 5, .reset, .data 1]) = true := by
  decide

/-- R343 along the boot of program P6, and with a step missing, a second grant, or a grant no greater than an earlier one. -/
theorem test_duty_boot :
    bootCompletes fresh [] [[.por], [.dcStep false false], [.dcStep true false, .dcGrant 4], [.dcStep true false], [.poll]] =
      true ∧
    bootsInOrder fresh [] [[.por], [.dcStep false false], [.poll]] = false ∧
    bootsInOrder fresh [] [[.por], [.dcStep false false], [.dcStep true false, .dcGrant 4, .dcGrant 5]] = false ∧
    bootsInOrder fresh [4] [[.por], [.dcStep false false], [.dcStep true false, .dcGrant 4]] = false ∧
    bootsInOrder fresh [] [[.dcStep false false]] = false := by
  decide

-- ---- witnesses: states and operands that meet the hypotheses of each statement, clause by clause ----

/-- Waiting for its enable. -/
def awaiting : State := { fresh with daisy := ⟨.awaitingEnable, none, false, false⟩ }

/-- Enabling the next node, with link `l` upstream. -/
def enabling (l : Link) : State := { fresh with daisy := ⟨.enablingDownstream, some l, false, false⟩, myAddress := 4 }

/-- Configured, with link 1 upstream (V-DC-9). -/
def configured : State := { fresh with daisy := ⟨.configured, some .link1, true, false⟩, myAddress := 4 }

/-- A chain of two fresh nodes, the second wired in reverse, as in program P4. -/
def chain2 : Chain := { enable := true, nodes := [⟨fresh, .link0⟩, ⟨fresh, .link1⟩] }

/-- Moves that configure the first node of `chain2` and bring the second to its claim. -/
def moves2 : List ChainMove :=
  [.dcStep 0, .dcStep 1, .dcStep 0, .event 0 (.dcGrant 1), .dcStep 0, .dcStep 1, .event 1 (.dcGrant 2)]

theorem fresh_inv : fresh.Inv where
  cfg_valid := by decide
  txen_off := rfl
  decoder := by
    constructor <;>
      simp [fresh, State.reset, Decoder.covered, Config.checksum, Memory.wf, cfg2, Config.default]
  daisy := by constructor <;> simp [fresh, State.reset]

/-- In `Active` with a right checksum byte, with a wrong one, and with no data byte. -/
def actives : List State := [inActive1 0x11, inActive1 0x05, inActive]

theorem actives_inv : ∀ s ∈ actives, s.Inv := by
  intro s h
  obtain rfl | rfl | rfl : s = inActive1 0x11 ∨ s = inActive1 0x05 ∨ s = inActive := by simpa [actives] using h
  all_goals
    exact
      { cfg_valid := by decide
        txen_off := rfl
        decoder :=
          { esc_inFrame := by decide
            hidx_le := by decide
            header_hidx := by decide
            active_hidx := by decide
            active_range := by decide
            n_le := by decide
            cells_written := by decide
            data_wf := by decide
            csacc_covers := fun _ => by decide
            ready_verified := by decide
            elapsed_le := by decide }
        daisy := fresh_inv.daisy }

theorem enabling_inv (l : Link) : (enabling l).Inv where
  cfg_valid := fresh_inv.cfg_valid
  txen_off := rfl
  decoder := fresh_inv.decoder
  daisy := by
    constructor <;> simp [enabling, fresh, cfg2, Config.default]

theorem configured_inv : configured.Inv where
  cfg_valid := by decide
  txen_off := rfl
  decoder := fresh_inv.decoder
  daisy := by
    constructor <;> simp [configured, fresh, cfg2, Config.default, Daisy.drive, Link.other]

theorem witness_DecodeOfEncodeIsTheInstruction :
    ∃ c i, Config.valid c = true ∧ WellFormed c i = true := ⟨cfg2, .data 0x41, by decide, by decide⟩

theorem witness_EncodeOfDecodeIsThePortItem : ∃ c p i, decode c p = .instr i :=
  ⟨cfg2, .field .source [0x5C, 0x3E], .frameSource 0x3E, by decide⟩

theorem witness_StepRunsTheDecodedEvent :
    ∃ (s : State) (p : Port) (rest : List Port) (i : Instr),
      s.cfg.valid = true ∧ s.pending = p :: rest ∧ decode s.cfg p = .instr i :=
  ⟨{ fresh with pending := [.event .tick []] }, .event .tick [], [], .tick, by decide, rfl, by decide⟩

theorem witness_StepWithoutEventChangesNothing : fresh.cfg.valid = true ∧ fresh.pending = [] := by decide

theorem witness_WireUnitsCompleteAsTheirFeeds :
    fresh.Accepts ∧
      ∀ i ∈ [Instr.startMark, .endMark, .escMark, .data 0x41, .escStart, .escEnd, .escEsc, .escData 0x41, .frameDestLow 1,
        .frameDestHigh 0x3E, .frameSource 0, .frameType 5, .frameBody 0x0A, .frameChecksum 0x5C, .frame ⟨1, 1, 0, 5, []⟩,
        .feed 0x3E], fedBytes fresh.cfg i ≠ [] := by
  decide

theorem witness_FeedChangesOnlyTheDecoder : fresh.Accepts ∧ inHeader3.Accepts ∧ inActive.Accepts := by decide

theorem witness_FeedOutsideAFrame :
    fresh.Accepts ∧ fresh.dec.pstate.inFrame = false ∧ inReady.Accepts ∧ inReady.dec.pstate.inFrame = false := by decide

theorem witness_HeaderStoresALiteralByte :
    inHeader3.Accepts ∧ inHeader3.dec.pstate = .header ∧ inHeader3.dec.elapsed ≤ inHeader3.cfg.tMsg ∧
    inHeader3.dec.hidx < 4 ∧ inHeader3.cfg.reserved 0x05 = false ∧
    (at_ { inHeader3.dec with hidx := 2, esc := true, elapsed := 2 }).Accepts ∧
    (at_ { inHeader3.dec with hidx := 2, esc := true, elapsed := 2 }).dec.elapsed ≤ cfg2.tMsg := by decide

theorem witness_HeaderEscapeIsPending :
    inHeader0.Accepts ∧ inHeader0.dec.pstate = .header ∧ inHeader0.dec.esc = false ∧
    inHeader0.dec.elapsed ≤ inHeader0.cfg.tMsg := by decide

theorem witness_HeaderStartRestarts :
    inHeader3.Accepts ∧ inHeader3.dec.pstate = .header ∧ inHeader3.dec.esc = false := by decide

theorem witness_HeaderEndIsIgnored :
    inHeader3.Accepts ∧ inHeader3.dec.pstate = .header ∧ inHeader3.dec.esc = false ∧
    inHeader3.dec.elapsed ≤ inHeader3.cfg.tMsg := by decide

theorem witness_ActiveByteIsAppended :
    inActive.Accepts ∧ inActive.dec.pstate = .active ∧ inActive.dec.elapsed ≤ inActive.cfg.tMsg ∧
    (0x3E : Byte) ≠ inActive.cfg.escByte ∧ (0x3E : Byte) ≠ inActive.cfg.endByte ∧
    (at_ { inActive.dec with esc := true }).Accepts := by decide

theorem witness_AppendStoresOrOverflows :
    inActiveFull.Accepts ∧ inActiveFull.dec.n = inActiveFull.cfg.maxBody + 1 ∧
    inActiveFull.dec.n ≤ inActiveFull.cfg.rxCap ∧ inActiveFull.dec.pstate = .active ∧
    inActive.Accepts ∧ inActive.dec.n < inActive.cfg.maxBody + 1 ∧
    (at_ { inActiveFull.dec with n := 10 }).dec.n < inActive.cfg.maxBody + 1 ∧
    (0x41 : Byte) ≠ inActive.cfg.escByte ∧ (0x41 : Byte) ≠ inActive.cfg.endByte := by decide

theorem witness_ActiveEscapeIsPending :
    inActive.Accepts ∧ inActive.dec.pstate = .active ∧ inActive.dec.esc = false ∧
    inActive.dec.elapsed ≤ inActive.cfg.tMsg := by decide

/-- One state for each clause: the checksum agrees, it does not, there is no data byte. -/
theorem witness_EndVerifiesTheChecksum :
    (∀ s ∈ actives, s.Inv) ∧
    ∀ s ∈ actives, s.dec.pstate = .active ∧ s.dec.esc = false ∧ s.dec.elapsed ≤ s.cfg.tMsg := ⟨actives_inv, by decide⟩

theorem witness_ReadyOnlyWithTheChecksumVerified :
    (∃ t, (inActive1 0x11).Inv ∧ (inActive1 0x11).dec.pstate ≠ .ready ∧
      exec (.feed 0x0A) (inActive1 0x11) = .next t ∧ t.dec.pstate = .ready) ∧
    ∃ t, fresh.Inv ∧ fresh.dec.pstate ≠ .ready ∧ exec (.frame ⟨3, 3, 0, 5, []⟩) fresh = .next t ∧ t.dec.pstate = .ready :=
  ⟨⟨_, actives_inv _ (.head _), by decide, rfl, by decide⟩, ⟨_, fresh_inv, by decide, rfl, by decide⟩⟩

theorem witness_TerminalStateIsLeftOnlyByStartOrReset :
    ∃ t, inReady.dec.pstate.terminal = true ∧ exec (.escData 0x41) inReady = .next t ∧
      inReady.cfg.startByte ∉ fedBytes inReady.cfg (.escData 0x41) := ⟨_, by decide, rfl, by decide⟩

theorem witness_ResetClearsOnlyTheDecoder : inActive.Accepts := by decide

theorem witness_ReadMsgReturnsTheMessage : inReady.Accepts ∧ inReady.dec.pstate = .ready := by decide

theorem witness_UnitInHeaderStoresItsByte :
    inHeader0.Accepts ∧ WellFormed inHeader0.cfg (.frameDestLow 0x3E) = true ∧
    carriedByte inHeader0.cfg (.frameDestLow 0x3E) = some 0x3E ∧ inHeader0.dec.pstate = .header ∧
    inHeader0.dec.esc = false ∧ inHeader0.dec.elapsed ≤ inHeader0.cfg.tMsg ∧ inHeader0.dec.hidx < 4 ∧
    inHeader3.Accepts ∧ carriedByte inHeader3.cfg (.frameType 5) = some 5 ∧ inHeader3.dec.hidx < 4 ∧
    (at_ { inHeader3.dec with hdr := ⟨5, 3, 0, 0⟩ }).Accepts := by decide

theorem witness_UnitInActiveAppendsItsByte :
    inActive.Accepts ∧ WellFormed inActive.cfg .escEnd = true ∧ carriedByte inActive.cfg .escEnd = some 0x0A ∧
    inActive.dec.pstate = .active ∧ inActive.dec.esc = false ∧ inActive.dec.elapsed ≤ inActive.cfg.tMsg ∧
    inActive.dec.n < inActive.cfg.rxCap := by decide

theorem witness_StartAndResetForgetTheFrameBefore :
    fresh.Accepts ∧ inHeader3.cfg = fresh.cfg ∧ inHeader3.txen = false ∧ fresh.dec.startsFrame = true ∧
    inHeader3.dec.startsFrame = true ∧ (at_ { inActive.dec with elapsed := 3 }).dec.late fresh.cfg = true :=
  ⟨by decide, rfl, rfl, by decide, by decide, by decide⟩

theorem witness_SendEmitsTheFrameAndChangesNothing :
    fresh.Accepts ∧ ([] : List Byte).length ≤ fresh.cfg.maxBody ∧ (List.replicate 10 (0x3E : Byte)).length ≤ fresh.cfg.maxBody ∧
    ∀ k, ({ fresh with credit := some 32 } : State).credit = some k → 32 ≤ k :=
  ⟨by decide, by decide, by decide, fun _ h => by cases h; decide⟩

theorem witness_FrameBytesRoundTrip :
    ∃ (m : Message) (events : List Instr), fresh.Accepts ∧ fresh.dec.startsFrame = true ∧
      m.body.length ≤ fresh.cfg.maxBody ∧ (m.destHigh = fresh.cfg.wildcard ∨ m.destLow ≤ m.destHigh) ∧
      events.all isFeedOrTick = true ∧ events.filterMap fedByte = fresh.cfg.encodeFrame m ∧
      events.head? = some (.feed fresh.cfg.startByte) ∧ events.getLast? = some (.feed fresh.cfg.endByte) ∧
      events.count .tick ≤ fresh.cfg.tMsg :=
  ⟨⟨1, 0xFF, 7, 1, []⟩,
    [.feed 0x3E, .tick, .feed 0x01, .feed 0xFF, .feed 0x07, .feed 0x01, .tick, .feed 0xF8, .feed 0x0A],
    by decide, by decide, by decide, by decide, by decide, by decide, by decide, by decide, by decide⟩

theorem witness_FrameUnitIsDecoded :
    inReady.Accepts ∧ inReady.dec.startsFrame = true ∧ ([] : List Byte).length ≤ inReady.cfg.maxBody ∧
    (0xFF : Byte) = inReady.cfg.wildcard ∧ (3 : Byte) ≤ 3 := by decide

/-- V-ENC-9's message has no `START` in its body or checksum. -/
theorem witness_FrameUnitWithInvalidRangeIsIgnored :
    fresh.Accepts ∧ fresh.dec.startsFrame = true ∧ (3 : Byte) ≠ fresh.cfg.wildcard ∧ (3 : Byte) < 5 ∧
    fresh.cfg.startByte ∉ [0x01] ++ [fresh.cfg.checksum (Message.fields ⟨5, 3, 0, 5, [0x01]⟩)] := by decide

theorem witness_FrameLengthCountsItsEscapes :
    ([] : List Byte).length ≤ cfg2.maxBody ∧ (List.replicate 10 (0x3E : Byte)).length ≤ cfg2.maxBody := by decide

theorem witness_ChecksumClosedForm : cfg2.csFold = .rotXor := rfl

theorem witness_SingleBitErrorFlipsOneChecksumBit :
    cfg2.csFold = .rotXor ∧ (List.replicate 9 (3 : Byte))[0]? = some 3 ∧ 7 < 8 ∧
    (List.replicate 9 (3 : Byte))[0 + 1]? = some 3 ∧ (List.replicate 9 (3 : Byte))[0 + 8]? = some 3 := by decide

theorem witness_FramedSingleBitErrorIsRejected :
    fresh.Accepts ∧ fresh.dec.startsFrame = true ∧ fresh.cfg.csFold = .rotXor ∧
    fresh.cfg.badRange 3 3 = false ∧ fresh.cfg.reserved 0x0A = true ∧
    fresh.cfg.reserved (0x96 ^^^ (1#8 <<< 7)) = false ∧
    ((⟨3, 3, 0, 5, [0x0A, 0x14, 0x1E]⟩ : Message).fields ++ [0x96])[7]? = some 0x96 ∧
    fresh.cfg.badRange 3 (3 ^^^ (1#8 <<< 0)) = true ∧ fresh.cfg.startByte ∉ ([0x0A, 0x14, 0x1E] ++ [0x96] : List Byte) := by
  decide

theorem witness_TickAdvancesOnlyTheTimer :
    fresh.Accepts ∧ (at_ { inHeader0.dec with elapsed := 2 }).Accepts ∧
    (at_ { inHeader0.dec with elapsed := 3 }).Accepts := by decide

theorem witness_PollTimesOutAfterTheBound :
    (at_ { inActive.dec with elapsed := 2 }).Accepts ∧ (at_ { inActive.dec with elapsed := 3 }).Accepts := by decide

theorem witness_LateByteIsJudgedInTimedOut :
    (at_ { inActive.dec with elapsed := 3 }).Accepts ∧ (at_ { inActive.dec with elapsed := 3 }).dec.pstate = .active ∧
    cfg2.tMsg < (at_ { inActive.dec with elapsed := 3 }).dec.elapsed := by decide

theorem witness_SilentTransportTimesOut : inHeader0.Accepts ∧ inHeader0.dec.pstate = .header := by decide

theorem witness_MatchAnswersTheRangeRule : fresh.Accepts := by decide

theorem witness_MatchOfTheSourceExamples : fresh.Accepts ∧ fresh.cfg.ctrlAddr = 0 ∧ fresh.cfg.wildcard ≠ 10 := by decide

theorem witness_DestinationFormsMatchTheirNodes :
    cfg2.ctrlAddr = 0 ∧ cfg2.wildcard ≠ 0 ∧ (255 : Byte) ≠ 0 ∧ (254 : Byte) ≠ 0 ∧ (254 : Byte) ≠ cfg2.wildcard ∧
    (1 : Byte) ≠ 0 ∧ (1 : Byte) ≤ 254 := by decide

theorem witness_UnconfiguredStepReleasesTheLinks : fresh.Accepts ∧ fresh.daisy.dstate = .unconfigured := by decide

theorem witness_FirstAssertedLinkBecomesUpstream : awaiting.Accepts ∧ awaiting.daisy.dstate = .awaitingEnable := by decide

theorem witness_ClaimingAndConfiguredStepsChangeNothing :
    claiming.Accepts ∧ claiming.daisy.dstate = .claimingAddress ∧ configured.Accepts ∧
    configured.daisy.dstate = .configured := by decide

theorem witness_EnablingStepAssertsTheDownstreamLink :
    (enabling .link0).Accepts ∧ (enabling .link0).daisy.dstate = .enablingDownstream ∧
    (enabling .link0).daisy.up = some .link0 ∧ (enabling .link1).Accepts ∧
    (enabling .link1).daisy.up = some .link1 := by decide

theorem witness_GrantIsRecorded :
    claiming.Accepts ∧ claiming.daisy.dstate = .claimingAddress ∧ (4 : Byte) ≠ claiming.cfg.ctrlAddr ∧ (4 : Byte) ≠ 0 := by decide

theorem witness_OtherGrantsAreIgnored :
    fresh.Accepts ∧ fresh.daisy.dstate ≠ .claimingAddress ∧ claiming.Accepts ∧ (0 : Byte) = claiming.cfg.ctrlAddr ∧
    ({ claiming with cfg := { cfg2 with ctrlAddr := 7 } } : State).Accepts := by decide

theorem witness_AddressIsWrittenOnlyByAnAcceptedGrant :
    (∃ t, exec (.dcGrant 4) claiming = .next t ∧ t.myAddress ≠ claiming.myAddress) ∧
    ∃ t, exec .por configured = .next t ∧ t.myAddress ≠ configured.myAddress :=
  ⟨⟨_, rfl, by decide⟩, ⟨_, rfl, by decide⟩⟩

theorem witness_TopologyIsFixedUntilPor :
    (∃ t, (enabling .link1).Inv ∧ exec (.dcStep false true) (enabling .link1) = .next t ∧
      (enabling .link1).daisy.up ≠ none ∧ (enabling .link1).daisy.drive .link0 = false ∧
      t.daisy.drive .link0 = true) ∧
    ∃ t, configured.Inv ∧ exec (.dcStep true true) configured = .next t ∧ configured.daisy.dstate = .configured ∧
      configured.daisy.drive .link0 = true :=
  ⟨⟨_, enabling_inv _, rfl, by decide⟩, ⟨_, configured_inv, rfl, by decide⟩⟩

theorem witness_CodecAndDaisyChainAreIndependent :
    (∃ t, exec (.frame ⟨1, 1, 0, 5, []⟩) claiming = .next t ∧ isDaisyEvent (.frame ⟨1, 1, 0, 5, []⟩) = false) ∧
    ∃ t, exec (.dcGrant 4) claiming = .next t ∧ isDaisyEvent (.dcGrant 4) = true :=
  ⟨⟨_, rfl, rfl⟩, ⟨_, rfl, rfl⟩⟩

theorem witness_AtMostOneNodeClaims :
    ∃ d, (∀ x ∈ chain2.nodes, x.fresh = true) ∧ (∀ m ∈ moves2.dropLast, m.isPor = false) ∧
      chain2.run moves2.dropLast = some d ∧ d.dstate 1 = some .claimingAddress :=
  ⟨_, by decide, by decide, rfl, by decide⟩

theorem witness_WaitingNodeNeverSeesBothWires :
    ∃ d, (∀ x ∈ chain2.nodes, x.fresh = true) ∧ (∀ m ∈ moves2.take 4, m.isPor = false) ∧
      chain2.run (moves2.take 4) = some d ∧ d.dstate 1 = some .awaitingEnable ∧
      (d.nodes[0]?).map (·.block.daisy.up) = some (some .link0) :=
  ⟨_, by decide, by decide, rfl, by decide, by decide⟩

theorem witness_ClaimedAddressesRiseAlongTheChain :
    ∃ d, (∀ x ∈ chain2.nodes, x.fresh = true) ∧ (∀ m ∈ moves2, m.isPor = false) ∧
      grantsIncrease (moves2.filterMap ChainMove.grant?) ∧ chain2.run moves2 = some d ∧
      d.address 0 = some 1 ∧ d.address 1 = some 2 ∧ d.dstate 1 = some .enablingDownstream :=
  ⟨_, by decide, by decide, by decide, rfl, by decide, by decide, by decide⟩

theorem witness_ThreeTransitionsANodeConfigureTheChain :
    chain2.composed = true ∧ chain2.enable = true ∧ (∀ x ∈ chain2.nodes, x.fresh = true ∧ x.block.cfg.valid = true) ∧
    ∀ x ∈ chain2.nodes, (1 : Byte) ≠ x.block.cfg.ctrlAddr ∧ (1 : Byte) ≠ 0 := by decide

theorem witness_RefusalsAreExactlyTheTable :
    exec .readMsg fresh = .refused .readOutsideReady ∧
    exec (.send ⟨1, 1, 0, 5, List.replicate 11 0⟩) fresh = .refused .sendBodyTooLong ∧
    exec .por { fresh with txen := true } = .refused .feedDuringSend ∧
    exec .por { fresh with cfg := { cfg2 with maxBody := 255 } } = .refused .badConfiguration := ⟨rfl, rfl, rfl, rfl⟩

theorem witness_OnlyABlockedTransportIsStuck :
    exec (.send ⟨1, 0xFF, 7, 1, []⟩) { fresh with credit := some 6 } = .fault .transportBlocked := rfl

theorem witness_PorSetsEveryPieceOfState : configured.Accepts := by decide

theorem witness_StepKeepsTheInvariant :
    ∃ t, ({ fresh with pending := [.wire [0x3E]] } : State).Inv ∧
      step { fresh with pending := [.wire [0x3E]] } = .next t :=
  ⟨_, ⟨fresh_inv.cfg_valid, fresh_inv.txen_off, fresh_inv.decoder, fresh_inv.daisy⟩, rfl⟩

theorem witness_StepKeepsConfigurationAndResults :
    ∃ t, step { fresh with pending := [.event .poll []] } = .next t := ⟨_, rfl⟩

/-- `fresh` with other header bytes and another draw differs from it in nothing visible. -/
theorem witness_StaleBytesAreNotObservable :
    ∃ t : State, fresh.Inv ∧ t.Inv ∧ fresh.SameVisible t ∧ t.dec.draw ≠ fresh.dec.draw ∧
      t.dec.hdr = { destLow := 1, destHigh := 2, source := 3, type := 4 } := by
  refine ⟨at_ { fresh.dec with hdr := ⟨1, 2, 3, 4⟩, draw := 7 }, fresh_inv, ?_, ?_, by decide, rfl⟩
  · exact
      ⟨fresh_inv.cfg_valid, fresh_inv.txen_off,
        ⟨fresh_inv.decoder.1, fresh_inv.decoder.2, fresh_inv.decoder.3, fresh_inv.decoder.4, by decide,
          fresh_inv.decoder.6, fresh_inv.decoder.7, fresh_inv.decoder.8, by decide, by decide,
          fresh_inv.decoder.11⟩, fresh_inv.daisy⟩
  · exact ⟨rfl, ⟨rfl, rfl, rfl, rfl, rfl, rfl, rfl, rfl⟩, rfl, rfl, rfl, rfl, rfl, rfl⟩

end Sys2Proof.Tests
end

