-- ==== Sys2Proof/Proofs/Decode.lean ====
section
/-!
SUPPORT and CERTIFICATES. One `FEED` in `Header` and in `Active`: first what the byte does to the decoder, one lemma per
rule of 40_decode.md, then the statements about `exec` that follow.
-/

namespace Sys2Proof.Machine

/-- An accepted `FEED` goes on with the decoder's own answer to the byte (R130). -/
theorem exec_feed_of_accepts {s : State} (h : s.Accepts) (b : Byte) :
    exec (.feed b) s = .next (s.withStatus (s.dec.feed s.cfg b)) :=
  State.guarded_of_accepts h _

/-- Clearing an escape flag that is clear changes nothing. -/
theorem Decoder.clearEsc_of_esc_false {d : Decoder} (h : d.esc = false) : { d with esc := false } = d := by
  rw [← h]

section Header
variable {c : Config} {d : Decoder}

/-- R135 by itself: in `Header` an unescaped `START` is a `restart()`. The earlier rule R134 does not take it, since R5
keeps `START` and `ESC` apart. -/
theorem Decoder.inHeader_startByte (hc : c.valid = true) (he : d.esc = false) :
    d.inHeader c c.startByte = d.restart c := by
  obtain ⟨-, hne, -⟩ := (Config.valid_iff c).1 hc
  simp [Decoder.inHeader, he, hne]

/-- A `START` outside a frame is a `restart()`, and the terminal state it leaves does not matter (R131). -/
theorem Decoder.outside_startByte : d.outside c c.startByte = d.restart c := by
  simp [Decoder.outside]

theorem Decoder.restart_enterTerminal (p : PState) : (d.enterTerminal p).restart c = d.restart c := rfl

/-- In `Header` an unescaped `START` restarts the decoder, in time by R135 and late by R131 out of `TimedOut`. -/
theorem Decoder.feed_startByte_of_header (hc : c.valid = true) (hp : d.pstate = .header) (he : d.esc = false) :
    d.feed c c.startByte = d.restart c := by
  obtain ⟨-, h⟩ | ⟨-, h⟩ | ⟨-, -, h⟩ | ⟨ha, -, -⟩ := d.feed_cases c c.startByte
  · rw [h, Decoder.outside_startByte]
  · rw [h, Decoder.outside_startByte, Decoder.restart_enterTerminal]
  · rw [h, Decoder.inHeader_startByte hc he]
  · simp [hp] at ha

end Header

section Active
variable {c : Config} {d : Decoder}

/-- In `Active` a byte that comes in time is taken by the rules of that state (R130, R222). -/
theorem Decoder.feed_of_active (hp : d.pstate = .active) (ht : d.elapsed ≤ c.tMsg) (b : Byte) :
    d.feed c b = d.inActive c b := by
  simp [Decoder.feed, Decoder.timeoutCheck_of_not_late (Decoder.not_late_of_le ht), Decoder.takeByte, hp]

/-- R141: in `Active` an unescaped `ESC` only sets the flag. -/
theorem Decoder.inActive_escByte (he : d.esc = false) : d.inActive c c.escByte = { d with esc := true } := by
  simp [Decoder.inActive, he]

/-- R139, R144 and R145 together: in `Active` an escaped byte, and an unescaped one that neither escapes nor closes, clears
the flag and is appended. -/
theorem Decoder.inActive_of_data {b : Byte} (h : d.esc = true ∨ (b ≠ c.escByte ∧ b ≠ c.endByte)) :
    d.inActive c b = Decoder.append c b { d with esc := false } := by
  obtain ⟨-, hin⟩ | ⟨he, hb, -⟩ | ⟨he, hb, -⟩ | ⟨he, -, -, hin⟩ := d.inActive_cases c b
  · exact hin
  · simp [he, hb] at h
  · simp [he, hb] at h
  · rw [hin, Decoder.clearEsc_of_esc_false he]

end Active

/-- Settles O11: in time the byte meets R135; late, the timeout check makes it a `START` outside a frame. Both restart. -/
theorem headerStartRestarts : Obligations.HeaderStartRestarts := by
  intro s ha hp he
  rw [exec_feed_of_accepts ha, Decoder.feed_startByte_of_header ha.1 hp he, Decoder.restart, ← he]

/-- Settles O13: in time the byte meets the rules of `Active`, and it is no unescaped `ESC` or `END`. -/
theorem activeByteIsAppended : Obligations.ActiveByteIsAppended := by
  intro s b ha hp ht hb
  rw [exec_feed_of_accepts ha, Decoder.feed_of_active hp ht, Decoder.inActive_of_data hb]

/-- Settles O15: in time the `ESC` meets R141. -/
theorem activeEscapeIsPending : Obligations.ActiveEscapeIsPending := by
  intro s ha hp he ht
  rw [exec_feed_of_accepts ha, Decoder.feed_of_active hp ht, Decoder.inActive_escByte he]

end Sys2Proof.Machine
end

section
/-!
SUPPORT and CERTIFICATES. What `START` and `RESET` forget (R203): the two operations of R132 and R150 erase all that a rule can
read of the frame before, and every `START` that begins a frame is the first of them.
-/

namespace Sys2Proof.Machine

section Forget
variable (c : Config) (d e : Decoder)

/-- `restart()` gives every piece that a rule can read a value that depends on the configuration alone (R132). The header
registers and the buffer cells stay, and with `hidx = 0` and `n = 0` none of them is readable. -/
theorem Decoder.restart_sameVisible : (d.restart c).SameVisible (e.restart c) :=
  ⟨rfl, rfl, rfl, rfl, rfl, rfl, rfl, rfl⟩

/-- So does `RESET` (R150). -/
theorem Decoder.toIdle_sameVisible : (d.toIdle c).SameVisible (e.toIdle c) :=
  ⟨rfl, rfl, rfl, rfl, rfl, rfl, rfl, rfl⟩

end Forget

/-- `Active` is no state in which a `START` begins a frame (R183). -/
theorem Decoder.startsFrame_of_active {d : Decoder} (hp : d.pstate = .active) : d.startsFrame = false := by
  simp [Decoder.startsFrame, hp]

/-- In `Header` a `START` begins a frame exactly where no escape is pending (R183). -/
theorem Decoder.startsFrame_of_header {d : Decoder} (hp : d.pstate = .header) : d.startsFrame = !d.esc := by
  simp [Decoder.startsFrame, hp]

/-- A `START` that begins a frame is a `restart()`: out of a frame by R131, late by R131 out of `TimedOut`, and in time in
`Header` by R135. -/
theorem Decoder.feed_startByte_eq_restart {c : Config} {d : Decoder} (hc : c.valid = true)
    (h : d.startsFrame = true ∨ d.late c = true) : d.feed c c.startByte = d.restart c := by
  obtain ⟨-, hf⟩ | ⟨-, hf⟩ | ⟨hp, ht, -⟩ | ⟨hp, ht, -⟩ := d.feed_cases c c.startByte
  · rw [hf, Decoder.outside_startByte]
  · rw [hf, Decoder.outside_startByte, Decoder.restart_enterTerminal]
  · have he : d.esc = false := by
      simpa [Decoder.startsFrame_of_header hp, Decoder.not_late_of_le ht] using h
    exact Decoder.feed_startByte_of_header hc hp he
  · simp [Decoder.startsFrame_of_active hp, Decoder.not_late_of_le ht] at h

/-- An accepted `START` that begins a frame goes on with the decoder restarted. -/
theorem exec_feed_startByte_of_accepts {s : State} (ha : s.Accepts)
    (h : s.dec.startsFrame = true ∨ s.dec.late s.cfg = true) :
    exec (.feed s.cfg.startByte) s = .next (s.withStatus (s.dec.restart s.cfg)) := by
  rw [exec_feed_of_accepts ha, Decoder.feed_startByte_eq_restart ha.1 h]

/-- An accepted `RESET` goes on with the decoder in `Idle` (R150). -/
theorem exec_reset_of_accepts {s : State} (h : s.Accepts) :
    exec .reset s = .next { s with dec := s.dec.toIdle s.cfg } :=
  State.guarded_of_accepts h _

/-- Settles O23: under one configuration the two `START`s restart both decoders and the two `RESET`s idle them, and what
either leaves readable is the same whatever was there before, `CS_SEED` in the accumulator among it. -/
theorem startAndResetForgetTheFrameBefore : Obligations.StartAndResetForgetTheFrameBefore := by
  intro s u hs hcfg htx
  have hu : u.Accepts := ⟨hcfg ▸ hs.1, htx⟩
  constructor
  · intro hfs hfu
    have hstart := exec_feed_startByte_of_accepts hu (by rwa [hcfg])
    rw [hcfg] at hstart
    exact ⟨_, _, exec_feed_startByte_of_accepts hs hfs, hstart, Decoder.restart_sameVisible _ _ _, rfl⟩
  · have hreset := exec_reset_of_accepts hu
    rw [hcfg] at hreset
    exact ⟨_, _, exec_reset_of_accepts hs, hreset, Decoder.toIdle_sameVisible _ _ _, rfl⟩

end Sys2Proof.Machine
end

section
/-!
SUPPORT and CERTIFICATES. `DC_STEP` in `EnablingDownstream`: the link asserted is the one that is not upstream (R267).
-/

namespace Sys2Proof.Machine

/-- An accepted `DC_STEP` goes on with the daisy-chain FSM's own step (R260). -/
theorem exec_dcStep_of_accepts {s : State} (h : s.Accepts) (s0 s1 : Bool) :
    exec (.dcStep s0 s1) s = .next { s with daisy := s.daisy.step s.cfg s0 s1 } :=
  State.guarded_of_accepts h _

/-- R267: with `l` upstream the step asserts the other link and finishes. Neither sample is read, nor `TIE_LINK`. -/
theorem Daisy.step_of_enablingDownstream {d : Daisy} {l : Link} (hd : d.dstate = .enablingDownstream)
    (hu : d.up = some l) (c : Config) (s0 s1 : Bool) :
    d.step c s0 s1 = { d.assertLink l.other with dstate := .configured } := by
  simpa [hd, hu] using d.step_cases c s0 s1

/-- Settles O42: the one law of R267, at upstream link 0, whose other link is link 1, and at upstream link 1, whose other
is link 0. -/
theorem enablingStepAssertsTheDownstreamLink : Obligations.EnablingStepAssertsTheDownstreamLink := by
  intro s s0 s1 ha hd
  rw [exec_dcStep_of_accepts ha]
  constructor <;> intro hu <;> rw [Daisy.step_of_enablingDownstream hd hu, Link.other, Daisy.assertLink]

end Sys2Proof.Machine
end

section
/-!
SUPPORT and CERTIFICATES. The port (30_encoding.md): each decoding function is inverse to its encoding, one lemma per function
of Decode.lean, and from them the two round trips of `decode` and `encode`, and the length of a frame (R96).
-/

namespace Sys2Proof

/-- A wire field is decoded to `x` exactly where it is `E(x)` (R93). -/
theorem decodeFieldByte_eq_some_iff {c : Config} {bs : List Byte} {x : Byte} :
    decodeFieldByte c bs = some x ↔ c.escape x = bs := by
  match bs with
  | [] => simp only [decodeFieldByte, Config.escape]; split <;> simp
  | [b] =>
    simp only [decodeFieldByte, Config.escape]
    by_cases h : b = x
    · subst h; cases c.reserved b <;> simp
    · split <;> split <;> simp [h, Ne.symm h]
  | [e, b] =>
    simp only [decodeFieldByte, Config.escape]
    by_cases h : b = x
    · subst h; cases c.reserved b <;> simp [eq_comm]
    · split <;> split <;> simp [h, Ne.symm h]
  | _ :: _ :: _ :: _ => simp only [decodeFieldByte, Config.escape]; split <;> simp

/-- Canonically escaped field bytes and an `END` are unescaped to the fields (R90, R93). -/
theorem unescapeTail_flatMap_escape (c : Config) (xs : List Byte) :
    unescapeTail c (xs.flatMap c.escape ++ [c.endByte]) = some xs := by
  induction xs with
  | nil => simp [unescapeTail]
  | cons x xs ih =>
    obtain ⟨y, ys, hys⟩ : ∃ y ys, xs.flatMap c.escape ++ [c.endByte] = y :: ys :=
      List.exists_cons_of_ne_nil (by simp)
    rw [hys] at ih
    rw [List.flatMap_cons, List.append_assoc, hys, Config.escape]
    cases hx : c.reserved x with
    | true => simp [unescapeTail, hx, ih]
    | false =>
      have hne : x ≠ c.escByte := fun h => by simp [h, Config.reserved] at hx
      simp [unescapeTail, hx, hne, ih]

/-- A tail that is unescaped to some fields is their canonical form (R90, R93). -/
theorem flatMap_escape_of_unescapeTail {c : Config} {bs xs : List Byte} (h : unescapeTail c bs = some xs) :
    xs.flatMap c.escape ++ [c.endByte] = bs := by
  induction bs using unescapeTail.induct (c := c) generalizing xs with
  | case1 => simp [unescapeTail] at h
  | case2 => simp_all [unescapeTail]
  | case3 b hb => simp [unescapeTail, hb] at h
  | case4 x rest hx ih =>
    rw [unescapeTail, if_pos rfl, if_pos hx] at h
    obtain ⟨ys, hys, rfl⟩ := Option.map_eq_some_iff.1 h
    simp [Config.escape, hx, ih hys]
  | case5 x rest hx => simp [unescapeTail, hx] at h
  | case6 b x rest hb hr => simp [unescapeTail, hb, hr] at h
  | case7 b x rest hb hr ih =>
    rw [unescapeTail, if_neg hb, if_neg hr] at h
    obtain ⟨ys, hys, rfl⟩ := Option.map_eq_some_iff.1 h
    simp [Config.escape, hr, ih hys]

/-- Field bytes are decoded to an instruction exactly where it is the frame of a body that fits, and they are the message's
fields and their checksum (R90, R201). -/
theorem decodeFields_eq_instr_iff {c : Config} {fs : List Byte} {i : Instr} :
    decodeFields c fs = .instr i ↔
      ∃ m, i = .frame m ∧ m.body.length ≤ c.maxBody ∧ fs = m.fields ++ [c.checksum m.fields] := by
  constructor
  · intro h
    unfold decodeFields at h
    split at h
    · rename_i lo hi src ty x rest
      dsimp only at h
      split at h
      · cases h
      · split at h
        · rename_i hlen hcs
          cases h
          refine ⟨_, rfl, Nat.not_lt.1 hlen, ?_⟩
          have := List.dropLast_append_getLast? _ hcs
          simpa [Message.fields] using this.symm
        · cases h
    · cases h
  · rintro ⟨m, rfl, hlen, rfl⟩
    obtain ⟨y, ys, hys⟩ : ∃ y ys, m.body ++ [c.checksum m.fields] = y :: ys := List.exists_cons_of_ne_nil (by simp)
    have hbody : (y :: ys).dropLast = m.body := by simp [← hys]
    have hlast : (y :: ys).getLast? = some (c.checksum m.fields) := by simp [← hys]
    have hfs : m.fields ++ [c.checksum m.fields] = m.destLow :: m.destHigh :: m.source :: m.type :: y :: ys := by
      simp [← hys, Message.fields]
    rw [hfs, decodeFields, hbody, if_neg (Nat.not_lt.2 hlen)]
    exact if_pos hlast

/-- Wire bytes are decoded as a frame exactly where they are the frame of a body that fits (R90). -/
theorem decodeFrame_eq_instr_iff {c : Config} {bs : List Byte} {i : Instr} :
    decodeFrame c bs = .instr i ↔ ∃ m, i = .frame m ∧ m.body.length ≤ c.maxBody ∧ bs = c.encodeFrame m := by
  constructor
  · intro h
    unfold decodeFrame at h
    split at h
    · cases h
    · split at h
      · rename_i hb
        split at h
        · rename_i fields hf
          obtain ⟨m, hi, hlen, rfl⟩ := decodeFields_eq_instr_iff.1 h
          refine ⟨m, hi, hlen, ?_⟩
          simp [Config.encodeFrame, ← flatMap_escape_of_unescapeTail hf, hb]
        · cases h
      · cases h
  · rintro ⟨m, hi, hlen, rfl⟩
    have htail := unescapeTail_flatMap_escape c (m.fields ++ [c.checksum m.fields])
    simp only [Config.encodeFrame, List.cons_append, List.nil_append, decodeFrame, if_pos, htail]
    exact decodeFields_eq_instr_iff.2 ⟨m, hi, hlen, rfl⟩

/-- Escaping adds one byte for each reserved one (R93). -/
theorem length_flatMap_escape (c : Config) (xs : List Byte) :
    (xs.flatMap c.escape).length = xs.length + xs.countP c.reserved := by
  induction xs with
  | nil => rfl
  | cons x xs ih =>
    rw [List.flatMap_cons, List.length_append, ih, List.length_cons, Config.escape]
    cases hx : c.reserved x <;> simp [hx] <;> omega

/-- The wire length of a frame: two markers, five bytes, the body and an `ESC` for each reserved byte (R96). -/
theorem length_encodeFrame (c : Config) (m : Message) :
    (c.encodeFrame m).length = 2 + (5 + m.body.length) + (m.fields ++ [c.checksum m.fields]).countP c.reserved := by
  have hlen : (m.fields ++ [c.checksum m.fields]).length = 5 + m.body.length := by
    simp [Message.fields]; omega
  have := length_flatMap_escape c (m.fields ++ [c.checksum m.fields])
  rw [hlen] at this
  simp only [Config.encodeFrame, List.length_append, List.length_singleton, this]
  omega

/-- Three or more wire bytes are no byte class and no pair: only a frame can be meant (R96). -/
theorem decodeWire_of_three_le {c : Config} {bs : List Byte} (h : 3 ≤ bs.length) : decodeWire c bs = decodeFrame c bs := by
  match bs, h with
  | _ :: _ :: _ :: _, _ => rfl

/-- Operands are bytes `xs` exactly where each is the byte of `xs` in its place. -/
theorem bodyOperands_eq_some_iff {ops : List Operand} {xs : List Byte} :
    bodyOperands ops = some xs ↔ ops = xs.map .byte := by
  induction ops generalizing xs with
  | nil => cases xs <;> simp [bodyOperands]
  | cons o ops ih =>
    cases o with
    | byte b =>
      simp only [bodyOperands, Option.map_eq_some_iff, ih]
      constructor
      · rintro ⟨ys, rfl, rfl⟩; rfl
      · intro h
        cases xs with
        | nil => simp at h
        | cons x xs => simp_all
    | bit v => cases xs <;> simp [bodyOperands]

/-- A byte's class is encoded as the byte (R92). -/
theorem encode_decodeByte (c : Config) (b : Byte) : encode c (decodeByte c b) = .wire [b] := by
  unfold decodeByte
  split
  · next h => rw [h]; rfl
  · split
    · next h => rw [h]; rfl
    · split
      · next h => rw [h]; rfl
      · rfl

/-- What an `ESC` and a byte stand for is encoded as the two (R93, R95). -/
theorem encode_decodeEscaped (c : Config) (b : Byte) : encode c (decodeEscaped c b) = .wire [c.escByte, b] := by
  unfold decodeEscaped
  split
  · next h => rw [h]; rfl
  · split
    · next h => rw [h]; rfl
    · split
      · next h => rw [h]; rfl
      · rfl

/-- A field's instruction is encoded as the field's name and the escaped byte (R90). -/
theorem encode_fieldInstr (c : Config) (f : FieldName) (x : Byte) : encode c (fieldInstr f x) = .field f (c.escape x) := by
  cases f <;> rfl

/-- A wire unit that decodes is the encoding of its instruction. -/
theorem encode_of_decodeWire {c : Config} {bs : List Byte} {i : Instr} (h : decodeWire c bs = .instr i) :
    encode c i = .wire bs := by
  match bs with
  | [] => cases h
  | [b] => cases h; exact encode_decodeByte c b
  | [e, b] =>
    simp only [decodeWire] at h
    split at h
    · cases h
      rename_i he
      rw [encode_decodeEscaped, he]
    · cases h
  | _ :: _ :: _ :: _ =>
    rw [decodeWire_of_three_le (by simp)] at h
    obtain ⟨m, rfl, -, hbs⟩ := decodeFrame_eq_instr_iff.1 h
    rw [hbs]
    rfl

/-- A `SEND` with its four header bytes is decoded exactly where the rest of its operands are the bytes of its body. -/
theorem decodeEvent_send_eq_instr_iff {l h s t : Byte} {rest : List Operand} {i : Instr} :
    decodeEvent .send (.byte l :: .byte h :: .byte s :: .byte t :: rest) = .instr i ↔
      ∃ body, bodyOperands rest = some body ∧ i = .send ⟨l, h, s, t, body⟩ := by
  rw [show decodeEvent .send (.byte l :: .byte h :: .byte s :: .byte t :: rest) =
    (bodyOperands rest).elim (.reject .wrongOperands) fun body => .instr (.send ⟨l, h, s, t, body⟩) by
      cases hb : bodyOperands rest <;> unfold decodeEvent <;> simp only [hb] <;> rfl]
  cases bodyOperands rest <;> simp [eq_comm]

/-- An event that decodes is the encoding of its instruction (R104). -/
theorem encode_of_decodeEvent {c : Config} {e : EventName} {ops : List Operand} {i : Instr}
    (h : decodeEvent e ops = .instr i) : encode c i = .event e ops := by
  cases e with
  | poll | tick | reset | readMsg | por =>
    match ops, h with
    | [], h => cases h; rfl
  | feed | dcGrant =>
    match ops, h with
    | [.byte _], h => cases h; rfl
  | matchRange =>
    match ops, h with
    | [.byte _, .byte _, .byte _], h => cases h; rfl
  | dcStep =>
    match ops, h with
    | [.bit _, .bit _], h => cases h; rfl
  | send =>
    match ops, h with
    | .byte l :: .byte h' :: .byte s :: .byte t :: rest, h =>
      obtain ⟨body, hbody, rfl⟩ := decodeEvent_send_eq_instr_iff.1 h
      rw [bodyOperands_eq_some_iff.1 hbody]
      rfl

/-- A field position's canonical wire bytes decode to its instruction. -/
theorem decode_field_escape (c : Config) (f : FieldName) (x : Byte) :
    decode c (.field f (c.escape x)) = .instr (fieldInstr f x) := by
  simp [decode, decodeFieldByte_eq_some_iff.2 rfl]

/-- A frame of a body that fits decodes to it. -/
theorem decode_wire_encodeFrame {c : Config} {m : Message} (h : m.body.length ≤ c.maxBody) :
    decode c (.wire (c.encodeFrame m)) = .instr (.frame m) := by
  have hlen : 3 ≤ (c.encodeFrame m).length := by rw [length_encodeFrame]; omega
  rw [decode, decodeWire_of_three_le hlen]
  exact decodeFrame_eq_instr_iff.2 ⟨m, rfl, h, rfl⟩

end Sys2Proof

namespace Sys2Proof.Machine

/-- Settles O1, one row of the table after another: the markers by R5, which keeps the three apart, the fields and the frame
by the inverses above. -/
theorem decodeOfEncodeIsTheInstruction : Obligations.DecodeOfEncodeIsTheInstruction := by
  intro c i hc hw
  obtain ⟨hse, hsx, hex, -⟩ := (Config.valid_iff c).1 hc
  cases i with
  | startMark | endMark | escMark =>
    simp [encode, decode, decodeWire, decodeByte, hse.symm, hsx.symm, hex.symm]
  | escStart | escEnd | escEsc =>
    simp [encode, decode, decodeWire, decodeEscaped, hse.symm, hsx.symm, hex.symm]
  | data d | escData d =>
    obtain ⟨h1, h2, h3⟩ := (Config.not_reserved_iff c d).1 (by simpa [WellFormed] using hw)
    simp [encode, decode, decodeWire, decodeByte, decodeEscaped, h1, h2, h3]
  | frameDestLow x | frameDestHigh x | frameSource x | frameType x | frameBody x | frameChecksum x =>
    exact decode_field_escape c _ x
  | frame m => exact decode_wire_encodeFrame (by simpa [WellFormed] using hw)
  | send m => exact decodeEvent_send_eq_instr_iff.2 ⟨m.body, bodyOperands_eq_some_iff.2 rfl, rfl⟩
  | feed | poll | tick | reset | readMsg | matchRange | dcStep | dcGrant | por => rfl

/-- Settles O2, by the kind of port item. -/
theorem encodeOfDecodeIsThePortItem : Obligations.EncodeOfDecodeIsThePortItem := by
  intro c p i h
  cases p with
  | wire bs => exact encode_of_decodeWire h
  | field f bs =>
    simp only [decode] at h
    split at h
    · rename_i x hx
      cases h
      rw [encode_fieldInstr, decodeFieldByte_eq_some_iff.1 hx]
    · cases h
  | event e ops => exact encode_of_decodeEvent h

/-- Settles O3, by running the decoder on the eight words. -/
theorem tableWordsDecodeToTheirRows : Obligations.TableWordsDecodeToTheirRows := by
  unfold Obligations.TableWordsDecodeToTheirRows
  decide

/-- Settles O28: the count is `length_encodeFrame`, and at most every one of the `5 + MAX_BODY` bytes is reserved. -/
theorem frameLengthCountsItsEscapes : Obligations.FrameLengthCountsItsEscapes := by
  intro c m hm
  have hcount := List.countP_le_length (p := c.reserved) (l := m.fields ++ [c.checksum m.fields])
  have hlen : (m.fields ++ [c.checksum m.fields]).length = 5 + m.body.length := by
    simp [Message.fields]; omega
  refine ⟨length_encodeFrame c m, ?_, ?_⟩ <;> rw [length_encodeFrame] <;> omega

end Sys2Proof.Machine
end

section
/-!
SUPPORT and CERTIFICATES. One `FEED`, rule by rule (40_decode.md): outside a frame (R131), in `Header` (R133 to R138), in
`Active` (R139 to R145), and what it can change at all.
-/

namespace Sys2Proof.Machine

section Outside
variable {c : Config} {d : Decoder}

/-- Outside a frame the timeout check does nothing and the byte meets R131. -/
theorem Decoder.feed_of_outside (h : d.pstate.inFrame = false) (b : Byte) : d.feed c b = d.outside c b := by
  obtain ⟨-, hf⟩ | ⟨hl, -⟩ | ⟨hp, -, -⟩ | ⟨hp, -, -⟩ := d.feed_cases c b
  · exact hf
  · simp [Decoder.late, h] at hl
  · simp [hp, PState.inFrame] at h
  · simp [hp, PState.inFrame] at h

/-- A late byte meets R131 in `TimedOut` (R222, R307). -/
theorem Decoder.feed_of_late (h : d.late c = true) (b : Byte) : d.feed c b = (d.enterTerminal .timedOut).outside c b := by
  have hin : (d.enterTerminal .timedOut).pstate.inFrame = false := rfl
  rw [← Decoder.feed_of_outside hin, Decoder.feed, Decoder.feed, Decoder.timeoutCheck_of_late h,
    Decoder.timeoutCheck_of_not_late (Decoder.not_late_of_outside hin)]

end Outside

section Header
variable {c : Config} {d : Decoder}

/-- In `Header` a byte that comes in time is taken by the rules of that state (R130, R222). -/
theorem Decoder.feed_of_header (hp : d.pstate = .header) (ht : d.elapsed ≤ c.tMsg) (b : Byte) :
    d.feed c b = d.inHeader c b := by
  simp [Decoder.feed, Decoder.timeoutCheck_of_not_late (Decoder.not_late_of_le ht), Decoder.takeByte, hp]

/-- R134: in `Header` an unescaped `ESC` only sets the flag. -/
theorem Decoder.inHeader_escByte (he : d.esc = false) : d.inHeader c c.escByte = { d with esc := true } := by
  simp [Decoder.inHeader, he]

/-- R136 by itself: R5 keeps `END` apart from the `ESC` and the `START` of the earlier rules. -/
theorem Decoder.inHeader_endByte (hc : c.valid = true) (he : d.esc = false) :
    d.inHeader c c.endByte = d.enterTerminal .ignored := by
  obtain ⟨hse, -, hex, -⟩ := (Config.valid_iff c).1 hc
  simp [Decoder.inHeader, he, hex, hse.symm]

/-- R133 and R137 together: in `Header` an escaped byte, and one that is not reserved, clears the flag and is stored. -/
theorem Decoder.inHeader_of_literal {b : Byte} (h : d.esc = true ∨ c.reserved b = false) :
    d.inHeader c b = Decoder.hdrStore c b { d with esc := false } := by
  cases he : d.esc with
  | true => simp [Decoder.inHeader, he]
  | false =>
    obtain ⟨h1, h2, h3⟩ := (Config.not_reserved_iff c b).1 (by simpa [he] using h)
    simp [Decoder.inHeader, he, h1, h2, h3, Decoder.clearEsc_of_esc_false he]

/-- The decoder state after a header byte at index `i`, the header then being `h` (R137, R138). -/
def Decoder.afterHeaderByte (c : Config) (i : Nat) (h : Header) : PState :=
  if i < 3 then .header
  else if h.destHigh ≠ c.wildcard ∧ h.destHigh < h.destLow then .ignored
  else .active

/-- `hdr_store` as one update: the fourth byte is followed by the range check (R137, R138). -/
theorem Decoder.hdrStore_eq (hp : d.pstate = .header) (hi : d.hidx < 4) (b : Byte) :
    Decoder.hdrStore c b { d with esc := false } =
      { d with
        esc := false, hdr := d.hdr.set d.hidx b, csacc := c.fold d.csacc b, hidx := d.hidx + 1
        pstate := Decoder.afterHeaderByte c d.hidx (d.hdr.set d.hidx b) } := by
  obtain ⟨h3, h⟩ | ⟨h3, hbad, h⟩ | ⟨h3, hbad, h⟩ := Decoder.hdrStore_cases c b { d with esc := false }
  · have : d.hidx < 3 := by
      have : d.hidx ≠ 3 := h3
      omega
    rw [h, Decoder.afterHeaderByte, if_pos this, ← hp]
    rfl
  all_goals
    replace h3 : d.hidx = 3 := h3
    rw [h, Decoder.afterHeaderByte, h3, if_neg (by decide)]
    simp only [Config.badRange, Bool.and_eq_true, Bool.and_eq_false_iff, bne_iff_ne, bne_eq_false_iff_eq,
      decide_eq_true_eq, decide_eq_false_iff_not] at hbad
  · rw [if_pos hbad]
    simp [Decoder.hdrWrite, Decoder.enterTerminal]
  · rw [if_neg (by tauto)]
    simp [Decoder.hdrWrite]

end Header

section Active
variable {c : Config} {d : Decoder}

/-- R140 at the capacity: the decoder overflows. -/
theorem Decoder.append_of_full (h : d.n = c.rxCap) (b : Byte) : d.append c b = d.enterTerminal .overflowed :=
  if_pos h

/-- R140 below the capacity: the byte is stored, and the one before it folded. -/
theorem Decoder.append_of_lt (h : d.n < c.rxCap) (b : Byte) :
    d.append c b =
      { d with
        csacc := if d.n = 0 then d.csacc else c.fold d.csacc (d.bufRead (d.n - 1))
        data := d.bufWrite c d.n b, n := d.n + 1 } := by
  rw [Decoder.append, if_neg (Nat.ne_of_lt h)]
  cases d.n <;> simp

/-- R142: in `Active` an unescaped `END` closes the frame, being no `ESC` by R5. -/
theorem Decoder.inActive_endByte (hc : c.valid = true) (he : d.esc = false) : d.inActive c c.endByte = d.close := by
  obtain ⟨-, -, hex, -⟩ := (Config.valid_iff c).1 hc
  simp [Decoder.inActive, he, hex]

end Active

section Frame
variable (c : Config)

/-- What an operation on the decoder that takes byte `b` may store (R72): the header register at `hidx` as the index advances,
and the buffer cell at `n` as the count does. Nothing draws anew. -/
structure Decoder.StoresOnly (b : Byte) (d e : Decoder) : Prop where
  draw : e.draw = d.draw
  hdr : e.hdr = d.hdr ∨ (e.hidx = d.hidx + 1 ∧ e.hdr = d.hdr.set d.hidx b)
  cells : ∀ a, (e.n = d.n + 1 → a ≠ d.n) → e.bufRead a = d.bufRead a

/-- An operation that keeps the draw, the header and the buffer stores nothing. -/
theorem Decoder.StoresOnly.of_same {b : Byte} {d e : Decoder} (hd : e.draw = d.draw) (hh : e.hdr = d.hdr)
    (hb : e.data = d.data) : Decoder.StoresOnly b d e :=
  ⟨hd, .inl hh, fun a _ => Decoder.bufRead_congr hb hd a⟩

/-- What is stored does not depend on the state register or the flag. -/
theorem Decoder.StoresOnly.of_with {b : Byte} {d e : Decoder} {p : PState} {v : Bool}
    (h : Decoder.StoresOnly b { d with pstate := p, esc := v } e) : Decoder.StoresOnly b d e :=
  ⟨h.draw, h.hdr, h.cells⟩

theorem Decoder.outside_storesOnly (b : Byte) (d : Decoder) : Decoder.StoresOnly b d (d.outside c b) := by
  obtain ⟨-, h⟩ | ⟨-, h⟩ := d.outside_cases c b <;> rw [h] <;> exact .of_same rfl rfl rfl

theorem Decoder.hdrStore_storesOnly (b : Byte) (d : Decoder) : Decoder.StoresOnly b d (d.hdrStore c b) := by
  obtain ⟨-, h⟩ | ⟨-, -, h⟩ | ⟨-, -, h⟩ := d.hdrStore_cases c b <;> rw [h] <;>
    exact ⟨rfl, .inr ⟨rfl, rfl⟩, fun a _ => Decoder.bufRead_congr rfl rfl a⟩

theorem Decoder.append_storesOnly (b : Byte) (d : Decoder) : Decoder.StoresOnly b d (d.append c b) := by
  obtain ⟨-, h⟩ | ⟨-, h⟩ := d.append_cases c b <;> rw [h]
  · exact .of_same rfl rfl rfl
  · refine ⟨rfl, .inl rfl, fun a ha => ?_⟩
    by_cases hn : d.n < c.rxCap
    · exact (Decoder.bufRead_bufWrite c d d.n a b hn).trans (if_neg (ha rfl))
    · exact Decoder.bufRead_congr (by exact if_neg hn) (by rfl) a

theorem Decoder.feed_storesOnly (b : Byte) (d : Decoder) : Decoder.StoresOnly b d (d.feed c b) := by
  obtain ⟨-, h⟩ | ⟨-, h⟩ | ⟨-, -, h⟩ | ⟨-, -, h⟩ := d.feed_cases c b <;> rw [h]
  · exact Decoder.outside_storesOnly c b d
  · exact (Decoder.outside_storesOnly c b (d.enterTerminal .timedOut)).of_with
  · obtain ⟨-, h⟩ | ⟨-, -, h⟩ | ⟨-, -, h⟩ | ⟨-, -, h⟩ | ⟨-, -, h⟩ := d.inHeader_cases c b <;> rw [h]
    · exact (Decoder.hdrStore_storesOnly c b { d with esc := false }).of_with
    · exact .of_same rfl rfl rfl
    · exact .of_same rfl rfl rfl
    · exact .of_same rfl rfl rfl
    · exact Decoder.hdrStore_storesOnly c b d
  · obtain ⟨-, h⟩ | ⟨-, -, h⟩ | ⟨-, -, h⟩ | ⟨-, -, -, h⟩ := d.inActive_cases c b <;> rw [h]
    · exact (Decoder.append_storesOnly c b { d with esc := false }).of_with
    · exact .of_same rfl rfl rfl
    · obtain ⟨-, -, h⟩ | ⟨-, h⟩ := d.close_cases <;> rw [h] <;> exact .of_same rfl rfl rfl
    · exact Decoder.append_storesOnly c b d

end Frame

/-- Settles O7: the guard lets the `FEED` through, and `Decoder.feed_storesOnly` says what it can store. -/
theorem feedChangesOnlyTheDecoder : Obligations.FeedChangesOnlyTheDecoder := by
  intro s b ha
  have h := Decoder.feed_storesOnly s.cfg b s.dec
  exact ⟨_, exec_feed_of_accepts ha b, h.draw, h.hdr, h.cells⟩

/-- Settles O8, by the two cases of R131. -/
theorem feedOutsideAFrame : Obligations.FeedOutsideAFrame := by
  intro s b ha hp
  rw [exec_feed_of_accepts ha, Decoder.feed_of_outside hp]
  obtain ⟨hb, h⟩ | ⟨hb, h⟩ := s.dec.outside_cases s.cfg b
  · rw [h, if_pos hb]; rfl
  · rw [h, if_neg hb]; rfl

/-- Settles O9: the byte meets R133 or R137, and `Decoder.hdrStore_eq` says what either stores. -/
theorem headerStoresALiteralByte : Obligations.HeaderStoresALiteralByte := by
  rintro s b _ ha hp ht hi hb rfl
  rw [exec_feed_of_accepts ha, Decoder.feed_of_header hp ht, Decoder.inHeader_of_literal hb, Decoder.hdrStore_eq hp hi]
  rfl

/-- Settles O10: in time the `ESC` meets R134. -/
theorem headerEscapeIsPending : Obligations.HeaderEscapeIsPending := by
  intro s ha hp he ht
  rw [exec_feed_of_accepts ha, Decoder.feed_of_header hp ht, Decoder.inHeader_escByte he]

/-- Settles O12: in time the `END` meets R136. -/
theorem headerEndIsIgnored : Obligations.HeaderEndIsIgnored := by
  intro s ha hp he ht
  rw [exec_feed_of_accepts ha, Decoder.feed_of_header hp ht, Decoder.inHeader_endByte ha.1 he, Decoder.enterTerminal, ← he]

/-- Settles O14: the byte is appended, and `append` overflows at the capacity and stores below it. -/
theorem appendStoresOrOverflows : Obligations.AppendStoresOrOverflows := by
  intro s b ha hp ht _ hb
  rw [exec_feed_of_accepts ha, Decoder.feed_of_active hp ht, Decoder.inActive_of_data hb]
  refine ⟨fun hn => ?_, fun hn => ⟨s.dec.bufWrite s.cfg s.dec.n b, ?_, fun a => ?_⟩⟩
  · rw [Decoder.append_of_full (d := { s.dec with esc := false }) hn]; rfl
  · rw [Decoder.append_of_lt (d := { s.dec with esc := false }) hn]; rfl
  · exact Decoder.bufRead_bufWrite s.cfg s.dec s.dec.n a b hn

end Sys2Proof.Machine
end

section
/-!
SUPPORT and CERTIFICATES. The invariant of Safety.lean: each operation of the decoder and of the daisy chain keeps it, so every
event does, so every step does.
-/

namespace Sys2Proof.Machine

section Covered
variable {c : Config} {d : Decoder}

/-- A header byte stored before any data byte is one more byte that `csacc` covers (R36, R137). -/
theorem Decoder.covered_hdrWrite (hi : d.hidx < 4) (hn : d.n = 0) (b : Byte) :
    (d.hdrWrite c b).covered = d.covered ++ [b] := by
  simp [Decoder.covered, hn, Header.take_set _ _ _ hi]

/-- Storing a header byte keeps `csacc` the checksum of what it covers (R36, R137). -/
theorem Decoder.csacc_hdrWrite (h : d.csacc = c.checksum d.covered) (hi : d.hidx < 4) (hn : d.n = 0) (b : Byte) :
    (d.hdrWrite c b).csacc = c.checksum (d.hdrWrite c b).covered := by
  rw [Decoder.covered_hdrWrite hi hn, Config.checksum_append_singleton, ← h]
  rfl

/-- What an appended byte leaves to read (R140). -/
theorem Decoder.bufRead_append (hn : d.n < c.rxCap) (b : Byte) (k : Nat) :
    (d.append c b).bufRead k = if k = d.n then b else d.bufRead k := by
  rw [Decoder.append_of_lt hn]
  exact Decoder.bufRead_bufWrite c d d.n k b hn

/-- An appended byte is one more cell (R140). -/
theorem Decoder.cells_append (hn : d.n < c.rxCap) (b : Byte) :
    (d.append c b).cells (d.n + 1) = d.cells d.n ++ [b] := by
  rw [Decoder.cells_succ, Decoder.bufRead_append hn, if_pos rfl]
  congr 1
  exact Decoder.cells_congr fun i hi => by rw [Decoder.bufRead_append hn, if_neg (Nat.ne_of_lt hi)]

/-- Appending covers the byte before the new one, if there is one (R36, R140). -/
theorem Decoder.csacc_append (h : d.csacc = c.checksum d.covered) (hn : d.n < c.rxCap) (b : Byte) :
    (d.append c b).csacc = c.checksum (d.append c b).covered := by
  have hcells : (d.append c b).cells d.n = d.cells d.n :=
    Decoder.cells_congr fun i hi => by rw [Decoder.bufRead_append hn, if_neg (Nat.ne_of_lt hi)]
  have hcov : (d.append c b).covered = d.hdr.toList.take d.hidx ++ d.cells d.n := by
    rw [← hcells]
    simp [Decoder.covered, Decoder.append_of_lt hn]
  rw [hcov, Decoder.append_of_lt hn]
  by_cases h0 : d.n = 0
  · simpa [h0, Decoder.covered] using h
  · have hsucc : d.cells d.n = d.cells (d.n - 1) ++ [d.bufRead (d.n - 1)] := by
      rw [← Decoder.cells_succ, Nat.sub_add_cancel (by omega)]
    rw [hsucc, ← List.append_assoc, Config.checksum_append_singleton]
    simp [h0, h, Decoder.covered]

end Covered

section DecoderInv
variable {c : Config} {d : Decoder}

/-- With nothing stored the invariant is that the buffer is canonical: after power-on, `RESET` and `START` (R132, R150, R340). -/
theorem Decoder.Inv.of_nothing_stored (hp : d.pstate = .idle ∨ d.pstate = .header) (he : d.esc = false)
    (hi : d.hidx = 0) (hn : d.n = 0) (hd : Memory.wf c.rxCap d.data) (hs : d.csacc = c.csSeed) (ht : d.elapsed = 0) :
    d.Inv c where
  esc_inFrame h := by simp [he] at h
  hidx_le := by omega
  header_hidx _ := by omega
  active_hidx h := by rcases hp with hp | hp <;> simp [hp] at h
  active_range h := by rcases hp with hp | hp <;> simp [hp] at h
  n_le := by omega
  cells_written i h := by omega
  data_wf := hd
  csacc_covers _ := by simp [hs, Decoder.covered, hi, hn, Config.checksum]
  ready_verified h := by rcases hp with hp | hp <;> simp [hp] at h
  elapsed_le := by omega

theorem Decoder.Inv.powerOn (c : Config) (d : Decoder) : (d.powerOn c).Inv c :=
  .of_nothing_stored (.inl rfl) rfl rfl rfl ⟨.nil, by simp⟩ rfl rfl

theorem Decoder.Inv.toIdle (h : d.Inv c) : (d.toIdle c).Inv c :=
  .of_nothing_stored (.inl rfl) rfl rfl rfl h.data_wf rfl rfl

theorem Decoder.Inv.restart (h : d.Inv c) : (d.restart c).Inv c :=
  .of_nothing_stored (.inr rfl) rfl rfl rfl h.data_wf rfl rfl

/-- The flag may be set in a frame, and cleared anywhere (R32). -/
theorem Decoder.Inv.withEsc (h : d.Inv c) {v : Bool} (hv : v = true → d.pstate.inFrame = true) :
    Decoder.Inv c { d with esc := v } :=
  { h with esc_inFrame := hv }

/-- An error may be entered from anywhere (R300). -/
theorem Decoder.Inv.enterTerminal (h : d.Inv c) {p : PState} (hp : p.terminal = true) (hr : p ≠ .ready) :
    (d.enterTerminal p).Inv c := by
  have hne : p ≠ .header ∧ p ≠ .active := by constructor <;> rintro rfl <;> simp [PState.terminal] at hp
  exact
    { h with
      esc_inFrame := fun h => by simp at h
      header_hidx := fun h => absurd h hne.1
      active_hidx := fun h => absurd h (not_or.2 ⟨hne.2, hr⟩)
      active_range := fun h => absurd h (not_or.2 ⟨hne.2, hr⟩)
      csacc_covers := fun h => absurd h (not_or.2 ⟨hne.1, not_or.2 ⟨hne.2, hr⟩⟩)
      ready_verified := fun h => absurd h hr }

theorem Decoder.Inv.outside (h : d.Inv c) (b : Byte) : (d.outside c b).Inv c := by
  obtain ⟨-, ho⟩ | ⟨-, ho⟩ := d.outside_cases c b <;> rw [ho]
  · exact h.restart
  · exact h

/-- `hdr_store` keeps the invariant: the fourth byte leaves `Header` with the range checked (R137, R138). -/
theorem Decoder.Inv.hdrStore (h : d.Inv c) (hp : d.pstate = .header) (he : d.esc = false) (b : Byte) :
    (d.hdrStore c b).Inv c := by
  obtain ⟨hi, hn⟩ := h.header_hidx hp
  have hcs := Decoder.csacc_hdrWrite (h.csacc_covers (.inl hp)) hi hn b
  obtain ⟨h3, hs⟩ | ⟨h3, -, hs⟩ | ⟨h3, hr, hs⟩ := d.hdrStore_cases c b <;> rw [hs]
  · exact
      { h with
        hidx_le := by simp; omega
        header_hidx := fun _ => by simp; omega
        active_hidx := fun h => by simp [hp] at h
        active_range := fun h => by simp [hp] at h
        csacc_covers := fun _ => hcs
        ready_verified := fun h => by simp [hp] at h }
  · exact
      { h with
        esc_inFrame := fun h => by simp at h
        hidx_le := by simp; omega
        header_hidx := fun h => by simp at h
        active_hidx := fun h => by simp at h
        active_range := fun h => by simp at h
        csacc_covers := fun h => by simp at h
        ready_verified := fun h => by simp at h }
  · exact
      { h with
        esc_inFrame := fun h => by simp [he] at h
        hidx_le := by simp; omega
        header_hidx := fun h => by simp at h
        active_hidx := fun _ => by simp [h3]
        active_range := fun _ => by simpa [h3] using hr
        csacc_covers := fun _ => hcs
        ready_verified := fun h => by simp at h }

/-- `append` keeps the invariant: the cell at `n` is written as the count advances (R140). -/
theorem Decoder.Inv.append (h : d.Inv c) (hp : d.pstate = .active) (b : Byte) : (d.append c b).Inv c := by
  rcases Nat.lt_or_ge d.n c.rxCap with hn | hn
  · have hcs := Decoder.csacc_append (h.csacc_covers (.inr (.inl hp))) hn b
    rw [Decoder.append_of_lt hn] at hcs ⊢
    refine
      { h with
        header_hidx := fun h => by simp [hp] at h
        n_le := hn
        cells_written := fun i hi => ?_
        data_wf := Decoder.bufWrite_wf c d d.n b h.data_wf
        csacc_covers := fun _ => hcs
        ready_verified := fun h => by simp [hp] at h }
    simp only [Decoder.bufWrite, hn, if_true, Memory.read?_write]
    split
    · rfl
    · exact h.cells_written i (by simp at hi; omega)
  · rw [Decoder.append_of_full (Nat.le_antisymm h.n_le hn)]
    exact h.enterTerminal rfl (by decide)

/-- `close` enters `Ready` with the checksum verified only (R143, R153). -/
theorem Decoder.Inv.close (h : d.Inv c) (hp : d.pstate = .active) : d.close.Inv c := by
  obtain ⟨hn, hcs, hcl⟩ | ⟨-, hcl⟩ := d.close_cases <;> rw [hcl]
  · exact
      { h with
        esc_inFrame := fun h => by simp at h
        header_hidx := fun h => by simp at h
        active_hidx := fun _ => h.active_hidx (.inl hp)
        active_range := fun _ => h.active_range (.inl hp)
        csacc_covers := fun _ => h.csacc_covers (.inr (.inl hp))
        ready_verified := fun _ => ⟨hn, hcs⟩ }
  · exact h.enterTerminal rfl (by decide)

/-- A `FEED` keeps the invariant, whichever rule takes the byte (R130). -/
theorem Decoder.Inv.feed (h : d.Inv c) (b : Byte) : (d.feed c b).Inv c := by
  obtain ⟨-, hf⟩ | ⟨-, hf⟩ | ⟨hp, -, hf⟩ | ⟨hp, -, hf⟩ := d.feed_cases c b <;> rw [hf]
  · exact h.outside b
  · exact (h.enterTerminal rfl (by decide)).outside b
  · obtain ⟨-, hf⟩ | ⟨-, -, hf⟩ | ⟨-, -, hf⟩ | ⟨-, -, hf⟩ | ⟨he, -, hf⟩ := d.inHeader_cases c b <;> rw [hf]
    · exact (h.withEsc (v := false) (by simp)).hdrStore hp rfl b
    · exact h.withEsc fun _ => by simp [hp, PState.inFrame]
    · exact h.restart
    · exact h.enterTerminal rfl (by decide)
    · exact h.hdrStore hp he b
  · obtain ⟨-, hf⟩ | ⟨-, -, hf⟩ | ⟨-, -, hf⟩ | ⟨-, -, -, hf⟩ := d.inActive_cases c b <;> rw [hf]
    · exact (h.withEsc (v := false) (by simp)).append hp b
    · exact h.withEsc fun _ => by simp [hp, PState.inFrame]
    · exact h.close hp
    · exact h.append hp b

theorem Decoder.Inv.timeoutCheck (h : d.Inv c) : (d.timeoutCheck c).Inv c := by
  cases hl : d.late c with
  | true => rw [Decoder.timeoutCheck_of_late hl]; exact h.enterTerminal rfl (by decide)
  | false => rwa [Decoder.timeoutCheck_of_not_late hl]

theorem Decoder.Inv.tick (h : d.Inv c) : (d.tick c).Inv c := by
  unfold Decoder.tick
  split
  · rename_i ht
    simp only [Bool.and_eq_true, decide_eq_true_eq] at ht
    exact { h with elapsed_le := Nat.succ_le_succ ht.2 }
  · exact h

end DecoderInv

section DaisyInv
variable {c : Config} {d : Daisy} {a : Byte}

/-- The daisy chain after power-on (R340). -/
theorem Daisy.Inv.powerOn (c : Config) : Daisy.Inv c ⟨.unconfigured, none, false, false⟩ 0 where
  up_resolved := by simp
  drive_before _ := ⟨rfl, rfl⟩
  drive_after l h := by simp at h
  addr_before _ := rfl
  addr_after h := by simp at h

/-- A `DC_STEP` keeps the invariant, arm by arm (R261 to R268). -/
theorem Daisy.Inv.step (h : d.Inv c a) (s0 s1 : Bool) : (d.step c s0 s1).Inv c a := by
  obtain ⟨hd, hs⟩ | ⟨hd, l, -, hs⟩ | ⟨hd, hu, -⟩ | ⟨hd, l, hu, hs⟩ | ⟨-, hs⟩ := d.step_cases c s0 s1
  · rw [hs, h.addr_before (.inl hd)]
    exact
      { up_resolved := by simp, drive_before := by simp, drive_after := by simp, addr_before := by simp
        addr_after := by simp }
  · have haddr := h.addr_before (.inr (.inl hd))
    have hdrive := h.drive_before (by simp [hd])
    rw [hs]
    exact
      { up_resolved := by simp, drive_before := fun _ => hdrive, drive_after := by simp, addr_before := fun _ => haddr
        addr_after := by simp }
  · have := h.up_resolved.1 hu
    simp [hd] at this
  · have hdrive := h.drive_before (by simp [hd])
    rw [hs]
    refine
      { up_resolved := by simp [hu], drive_before := by simp, drive_after := ?_, addr_before := by simp
        addr_after := fun _ => h.addr_after (.inl hd) }
    rintro k - hk
    obtain rfl : l = k := by simpa [hu] using hk
    cases l <;> simp [Daisy.assertLink, Daisy.drive, Link.other, hdrive]
  · rwa [hs]

/-- An accepted grant keeps the invariant: the address recorded is a peripheral's (R265). -/
theorem Daisy.Inv.grant (h : d.Inv c a) (hd : d.dstate = .claimingAddress) {g : Byte} (hg : g ≠ c.ctrlAddr) (h0 : g ≠ 0) :
    Daisy.Inv c { d with dstate := .enablingDownstream } g where
  up_resolved := by simp [h.up_resolved, hd]
  drive_before _ := h.drive_before (by simp [hd])
  drive_after l h := by simp at h
  addr_before h := by simp at h
  addr_after _ := ⟨hg, h0⟩

end DaisyInv

/-- Feeding bytes keeps the decoder's invariant. -/
theorem Decoder.Inv.feedBytes {s : State} (h : s.dec.Inv s.cfg) (bs : List Byte) : (s.feedBytes bs).dec.Inv s.cfg :=
  State.feedBytes_induct (P := Decoder.Inv s.cfg) (fun _ b hd => hd.feed b) bs h

/-- Every event that goes on keeps the invariant. -/
theorem State.Inv.exec {i : Instr} {s t : State} (h : s.Inv) (he : exec i s = .next t) : t.Inv := by
  obtain ⟨-, he⟩ := exec_eq_next_iff.1 he
  cases he with
  | feeds =>
    exact ⟨by simpa using h.cfg_valid, by simpa using h.txen_off, by simpa using h.decoder.feedBytes _,
      by simpa using h.daisy⟩
  | poll => exact { h with decoder := h.decoder.timeoutCheck }
  | tick => exact { h with decoder := h.decoder.tick }
  | reset => exact { h with decoder := h.decoder.toIdle }
  | readMsg | send | matchRange | grantIgnored => exact { h with }
  | dcStep s0 s1 => exact { h with daisy := h.daisy.step s0 s1 }
  | grantTaken a hd ha h0 => exact { h with daisy := h.daisy.grant hd ha h0 }
  | por => exact { h with txen_off := rfl, decoder := .powerOn _ _, daisy := .powerOn _ }

/-- Settles O58: a step waits, or takes an event off the list and runs it. -/
theorem stepKeepsTheInvariant : Obligations.StepKeepsTheInvariant := by
  intro s t h hs
  obtain ⟨-, ⟨-, rfl⟩ | ⟨p, rest, i, -, -, he⟩⟩ := step_eq_next_iff.1 hs
  · exact h
  · have hrest : State.Inv { s with pending := rest } := { h with }
    exact hrest.exec he

/-- Settles O57: nothing is stored, nothing driven and nothing assigned. -/
theorem resetMeetsTheInvariant : Obligations.ResetMeetsTheInvariant where
  cfg_valid := by simp [State.reset, Config.default, Config.valid_iff]
  txen_off := rfl
  decoder := .of_nothing_stored (.inl rfl) rfl rfl rfl ⟨.nil, by simp [State.reset]⟩ rfl rfl
  daisy := .powerOn _

/-- Settles O16: by the invariant `csacc` is the checksum that `close` compares the last byte with. -/
theorem endVerifiesTheChecksum : Obligations.EndVerifiesTheChecksum := by
  intro s h hp he ht
  have hcs := h.decoder.csacc_covers (.inr (.inl hp))
  have hcov : s.dec.covered = s.dec.hdr.toList ++ s.dec.cells (s.dec.n - 1) := by
    rw [Decoder.covered, h.decoder.active_hidx (.inl hp)]
    rfl
  rw [exec_feed_of_accepts ⟨h.cfg_valid, h.txen_off⟩, Decoder.feed_of_active hp ht, Decoder.inActive_endByte h.cfg_valid he,
    ← hcov, ← hcs]
  obtain ⟨hn, heq, hcl⟩ | ⟨hor, hcl⟩ := s.dec.close_cases <;> rw [hcl, Decoder.enterTerminal, ← he]
  · rw [if_pos ⟨by omega, heq⟩]
  · rw [if_neg (by tauto)]

end Sys2Proof.Machine
end

section
/-!
SUPPORT and CERTIFICATES. Entering `Ready` (R153), leaving a terminal state (R31, R151), and what no step writes (R84, R357).
-/

namespace Sys2Proof.Machine

/-- The decoder after the bytes of a list, one `FEED` each (R130). -/
def Decoder.feedAll (c : Config) (d : Decoder) (bs : List Byte) : Decoder := bs.foldl (fun e b => e.feed c b) d

section FeedAll
variable (c : Config) (d : Decoder)
@[simp] theorem Decoder.feedAll_nil : d.feedAll c [] = d := rfl
@[simp] theorem Decoder.feedAll_cons (b : Byte) (bs : List Byte) :
    d.feedAll c (b :: bs) = (d.feed c b).feedAll c bs := rfl
theorem Decoder.feedAll_append (bs cs : List Byte) : d.feedAll c (bs ++ cs) = (d.feedAll c bs).feedAll c cs :=
  List.foldl_append ..
end FeedAll

/-- It is the decoder that `State.feedBytes` leaves. -/
theorem State.feedBytes_dec (s : State) (bs : List Byte) : (s.feedBytes bs).dec = s.dec.feedAll s.cfg bs := by
  induction bs generalizing s with
  | nil => rfl
  | cons b bs ih => exact ih (s.feedByte b)

/-- What does not hold at first and holds after some bytes begins to hold at one of them. -/
theorem State.feedBytes_first {P : State → Prop} (s : State) (bs : List Byte) (h : ¬P s) (ht : P (s.feedBytes bs)) :
    ∃ before b after, bs = before ++ [b] ++ after ∧ ¬P (s.feedBytes before) ∧ P ((s.feedBytes before).feedByte b) := by
  induction bs generalizing s with
  | nil => exact absurd ht h
  | cons b bs ih =>
    by_cases hb : P (s.feedByte b)
    · exact ⟨[], b, bs, rfl, h, hb⟩
    · obtain ⟨before, b', after, rfl, hrest⟩ := ih (s.feedByte b) hb ht
      exact ⟨b :: before, b', after, rfl, hrest⟩

section Ready
variable {c : Config} {b : Byte} {d : Decoder}

theorem Decoder.outside_ne_ready (h : d.pstate ≠ .ready) : (d.outside c b).pstate ≠ .ready := by
  obtain ⟨-, ho⟩ | ⟨-, ho⟩ := d.outside_cases c b <;> rw [ho]
  · simp
  · exact h

theorem Decoder.hdrStore_ne_ready (h : d.pstate ≠ .ready) : (d.hdrStore c b).pstate ≠ .ready := by
  obtain ⟨-, hs⟩ | ⟨-, -, hs⟩ | ⟨-, -, hs⟩ := d.hdrStore_cases c b <;> rw [hs]
  · exact h
  · simp
  · simp

theorem Decoder.inHeader_ne_ready (h : d.pstate ≠ .ready) : (d.inHeader c b).pstate ≠ .ready := by
  obtain ⟨-, hs⟩ | ⟨-, -, hs⟩ | ⟨-, -, hs⟩ | ⟨-, -, hs⟩ | ⟨-, -, hs⟩ := d.inHeader_cases c b <;> rw [hs]
  · exact Decoder.hdrStore_ne_ready h
  · exact h
  · simp
  · simp
  · exact Decoder.hdrStore_ne_ready h

theorem Decoder.append_ne_ready (h : d.pstate ≠ .ready) : (d.append c b).pstate ≠ .ready := by
  obtain ⟨-, hs⟩ | ⟨-, hs⟩ := d.append_cases c b <;> rw [hs]
  · simp
  · exact h

/-- A byte that takes the decoder to `Ready` is an unescaped `END` that comes in time in `Active` (R142, R153). -/
theorem Decoder.of_feed_enters_ready (h : d.pstate ≠ .ready) (hr : (d.feed c b).pstate = .ready) :
    d.pstate = .active ∧ d.esc = false ∧ d.elapsed ≤ c.tMsg ∧ b = c.endByte := by
  obtain ⟨-, hf⟩ | ⟨-, hf⟩ | ⟨-, -, hf⟩ | ⟨hp, ht, hf⟩ := d.feed_cases c b <;> rw [hf] at hr
  · exact absurd hr (Decoder.outside_ne_ready h)
  · exact absurd hr (Decoder.outside_ne_ready (by simp))
  · exact absurd hr (Decoder.inHeader_ne_ready h)
  · obtain ⟨-, hs⟩ | ⟨-, -, hs⟩ | ⟨he, hb, -⟩ | ⟨-, -, -, hs⟩ := d.inActive_cases c b
    · rw [hs] at hr
      exact absurd hr (Decoder.append_ne_ready h)
    · rw [hs] at hr
      exact absurd hr h
    · exact ⟨hp, he, ht, hb⟩
    · rw [hs] at hr
      exact absurd hr (Decoder.append_ne_ready h)

/-- By the invariant the message standing in `Ready` agrees with its checksum (R45, R153). -/
theorem Decoder.Inv.messageChecksum_eq (h : d.Inv c) (hr : d.pstate = .ready) :
    d.messageChecksum = c.checksum d.message.fields := by
  have hcs := h.csacc_covers (.inr (.inr hr))
  rw [Decoder.covered, h.active_hidx (.inr hr)] at hcs
  exact (h.ready_verified hr).2.symm.trans hcs

end Ready

section Terminal
variable {c : Config} {d : Decoder}

/-- A terminal state is no frame in progress (R31). -/
theorem PState.not_inFrame_of_terminal {p : PState} (h : p.terminal = true) : p.inFrame = false := by
  cases p <;> simp_all [PState.terminal, PState.inFrame]

theorem Decoder.timeoutCheck_of_outside (h : d.pstate.inFrame = false) : d.timeoutCheck c = d :=
  Decoder.timeoutCheck_of_not_late (Decoder.not_late_of_outside h)

theorem Decoder.tick_of_outside (h : d.pstate.inFrame = false) : d.tick c = d := by
  simp [Decoder.tick, h]

/-- Outside a frame a byte that is no `START` changes nothing (R131). -/
theorem Decoder.feed_of_outside_of_ne (h : d.pstate.inFrame = false) {b : Byte} (hb : b ≠ c.startByte) :
    d.feed c b = d := by
  rw [Decoder.feed_of_outside h, Decoder.outside, if_neg hb]

/-- Outside a frame no byte of a list without a `START` changes anything (R131). -/
theorem Decoder.feedAll_of_outside (h : d.pstate.inFrame = false) {bs : List Byte} (hbs : c.startByte ∉ bs) :
    d.feedAll c bs = d := by
  induction bs with
  | nil => rfl
  | cons b bs ih =>
    rw [List.mem_cons, not_or] at hbs
    rw [Decoder.feedAll_cons, Decoder.feed_of_outside_of_ne h (Ne.symm hbs.1), ih hbs.2]

end Terminal

/-- Every event keeps the configuration and adds to the results (R84, R357). -/
theorem exec_keeps_cfg_and_results {i : Instr} {s t : State} (h : exec i s = .next t) :
    t.cfg = s.cfg ∧ ∃ added, t.obs = s.obs ++ added := by
  obtain ⟨-, he⟩ := exec_eq_next_iff.1 h
  cases he with
  | feeds =>
    obtain ⟨d, added, hd, -⟩ := s.feedBytes_frame (fedBytes s.cfg i)
    rw [hd]
    exact ⟨rfl, added, rfl⟩
  | poll | readMsg | send | matchRange => exact ⟨rfl, _, rfl⟩
  | tick | reset | dcStep | grantTaken | grantIgnored | por => exact ⟨rfl, [], (List.append_nil _).symm⟩

/-- Settles O17: only a fed byte enters `Ready`, and the first that does is the `END`; that the checksum is verified is the
invariant of the state after. -/
theorem readyOnlyWithTheChecksumVerified : Obligations.ReadyOnlyWithTheChecksumVerified := by
  intro i s t h hs he ht
  have hcfg : t.cfg = s.cfg := (exec_keeps_cfg_and_results he).1
  have hinv := (h.exec he).decoder
  rw [hcfg] at hinv
  refine ⟨hinv.messageChecksum_eq ht, ?_⟩
  obtain ⟨-, he⟩ := exec_eq_next_iff.1 he
  cases he with
  | feeds =>
    obtain ⟨before, b, after, hbs, hne, hr⟩ := s.feedBytes_first (P := fun u => u.dec.pstate = .ready) _ hs ht
    obtain ⟨hp, hesc, htime, rfl⟩ := Decoder.of_feed_enters_ready hne hr
    rw [State.feedBytes_cfg] at hbs htime
    exact ⟨before, after, hbs, hp, hesc, htime⟩
  | poll =>
    cases hl : s.dec.late s.cfg with
    | true => simp [Decoder.timeoutCheck_of_late hl] at ht
    | false => exact absurd (by simpa [Decoder.timeoutCheck_of_not_late hl] using ht) hs
  | tick =>
    refine absurd ?_ hs
    rw [← ht]
    simp only [Decoder.tick]
    split <;> rfl
  | reset | por => simp at ht
  | readMsg | send | matchRange | dcStep | grantTaken | grantIgnored => exact absurd ht hs

/-- Settles O18: outside a frame only a `START` byte, a `RESET` and a `POR` change the decoder. -/
theorem terminalStateIsLeftOnlyByStartOrReset : Obligations.TerminalStateIsLeftOnlyByStartOrReset := by
  intro i s t h he hreset hpor hstart
  have hout := PState.not_inFrame_of_terminal h
  obtain ⟨-, he⟩ := exec_eq_next_iff.1 he
  cases he with
  | feeds => rw [State.feedBytes_dec, Decoder.feedAll_of_outside hout hstart]
  | poll => simp [Decoder.timeoutCheck_of_outside hout]
  | tick => simp [Decoder.tick_of_outside hout]
  | reset => exact absurd rfl hreset
  | por => exact absurd rfl hpor
  | readMsg | send | matchRange | dcStep | grantTaken | grantIgnored => rfl

/-- Settles O59: a step waits, or takes an event off the list and runs it. -/
theorem stepKeepsConfigurationAndResults : Obligations.StepKeepsConfigurationAndResults := by
  intro s t hs
  obtain ⟨-, ⟨-, rfl⟩ | ⟨p, rest, i, -, -, he⟩⟩ := step_eq_next_iff.1 hs
  · exact ⟨rfl, [], (List.append_nil _).symm⟩
  · exact exec_keeps_cfg_and_results (s := { s with pending := rest }) he

end Sys2Proof.Machine
end

section
/-!
SUPPORT and CERTIFICATES. The stops of an event: the two refusals of the guard, those of `SEND` and `READ_MSG`, and the stuck
transport (R310, R354).
-/

namespace Sys2Proof.Machine

/-- The guard's refusals come first, and then the event's own (R310). -/
theorem State.guarded_eq_refused_iff {s : State} {a : Answer} {r : Refusal} :
    s.guarded a = .refused r ↔
      (s.cfg.valid = false ∧ r = .badConfiguration) ∨ (s.cfg.valid = true ∧ s.txen = true ∧ r = .feedDuringSend) ∨
        (s.Accepts ∧ a = .refused r) := by
  unfold State.guarded State.Accepts
  cases s.cfg.valid <;> cases s.txen <;> simp [eq_comm]

/-- The guard raises no fault. -/
theorem State.guarded_eq_fault_iff {s : State} {a : Answer} {f : Fault} :
    s.guarded a = .fault f ↔ s.Accepts ∧ a = .fault f := by
  unfold State.guarded State.Accepts
  cases s.cfg.valid <;> cases s.txen <;> simp

/-- Transmitting completes or is stuck, by the transport's count (R181, R354). -/
theorem State.transmit_cases (s : State) (xs : List Byte) :
    (∃ t, s.transmit xs = .next t ∧ ∀ k, s.credit = some k → xs.length ≤ k) ∨
    (∃ k, s.credit = some k ∧ k < xs.length ∧ s.transmit xs = .fault .transportBlocked) := by
  by_cases h : ∀ k, s.credit = some k → xs.length ≤ k
  · exact .inl ⟨_, State.transmit_of_credit h, h⟩
  · simp only [not_forall, Nat.not_le] at h
    obtain ⟨k, hk, hlt⟩ := h
    exact .inr ⟨k, hk, hlt, State.transmit_of_blocked hk hlt⟩

/-- Behind the guard every event but `SEND` and `READ_MSG` goes on. -/
theorem exec_eq_guarded (i : Instr) (s : State) :
    (∃ t, exec i s = s.guarded (.next t) ∧ (∀ m, i ≠ .send m) ∧ i ≠ .readMsg) ∨
    (∃ m, i = .send m ∧ exec i s = s.guarded
      (if s.cfg.maxBody < m.body.length then .refused .sendBodyTooLong else s.transmit (s.cfg.encodeFrame m))) ∨
    (i = .readMsg ∧ exec i s = s.guarded
      (if s.dec.pstate = .ready then .next (s.record (.message s.dec.message s.dec.messageChecksum))
        else .refused .readOutsideReady)) := by
  cases i with
  | send m => exact .inr (.inl ⟨m, rfl, rfl⟩)
  | readMsg => exact .inr (.inr ⟨rfl, rfl⟩)
  | dcGrant a =>
    left
    by_cases h : s.daisy.dstate = .claimingAddress ∧ a ≠ s.cfg.ctrlAddr ∧ a ≠ 0
    · exact ⟨_, by rw [exec, execDcGrant, if_pos h], nofun, nofun⟩
    · exact ⟨_, by rw [exec, execDcGrant, if_neg h], nofun, nofun⟩
  | _ => exact .inl ⟨_, rfl, nofun, nofun⟩

/-- The refusals of an event (R310). -/
theorem exec_eq_refused_iff {i : Instr} {s : State} {r : Refusal} :
    exec i s = .refused r ↔
      (s.cfg.valid = false ∧ r = .badConfiguration) ∨
      (s.cfg.valid = true ∧ s.txen = true ∧ r = .feedDuringSend) ∨
      (s.Accepts ∧ r = .sendBodyTooLong ∧ ∃ m, i = .send m ∧ s.cfg.maxBody < m.body.length) ∨
      (s.Accepts ∧ r = .readOutsideReady ∧ i = .readMsg ∧ s.dec.pstate ≠ .ready) := by
  obtain ⟨t, he, hsend, hread⟩ | ⟨m, rfl, he⟩ | ⟨rfl, he⟩ := exec_eq_guarded i s <;> rw [he, State.guarded_eq_refused_iff]
  · simp [hsend, hread]
  · by_cases hm : s.cfg.maxBody < m.body.length
    · simp [hm, eq_comm (a := r)]
    · obtain ⟨t, ht, -⟩ | ⟨k, -, -, ht⟩ := s.transmit_cases (s.cfg.encodeFrame m) <;> simp [hm, ht]
  · by_cases hp : s.dec.pstate = .ready <;> simp [hp, eq_comm (a := r)]

/-- The one fault of an event (R354). -/
theorem exec_eq_fault_iff {i : Instr} {s : State} {f : Fault} :
    exec i s = .fault f ↔
      s.Accepts ∧ f = .transportBlocked ∧
        ∃ m k, i = .send m ∧ m.body.length ≤ s.cfg.maxBody ∧ s.credit = some k ∧ k < (s.cfg.encodeFrame m).length := by
  obtain ⟨t, he, hsend, -⟩ | ⟨m, rfl, he⟩ | ⟨rfl, he⟩ := exec_eq_guarded i s <;> rw [he, State.guarded_eq_fault_iff]
  · simp [hsend]
  · by_cases hm : s.cfg.maxBody < m.body.length
    · simp [hm]
    · obtain ⟨t, ht, hk⟩ | ⟨k, hk, hlt, ht⟩ := s.transmit_cases (s.cfg.encodeFrame m)
      · refine ⟨fun h => by simp [hm, ht] at h, ?_⟩
        rintro ⟨-, -, _, k, ⟨⟩, -, hc, hlt⟩
        exact absurd (hk k hc) (Nat.not_le.2 hlt)
      · simp [hm, ht, hk, hlt, Nat.not_lt.1 hm]
  · by_cases hp : s.dec.pstate = .ready <;> simp [hp]

/-- Settles O53: the guard's two refusals, and behind it the two of `SEND` and `READ_MSG`. -/
theorem refusalsAreExactlyTheTable : Obligations.RefusalsAreExactlyTheTable := fun _ _ _ => exec_eq_refused_iff

/-- Settles O54: behind the guard only a `SEND` that is not refused transmits. -/
theorem onlyABlockedTransportIsStuck : Obligations.OnlyABlockedTransportIsStuck := fun _ _ _ => exec_eq_fault_iff

end Sys2Proof.Machine
end

section
/-!
SUPPORT and CERTIFICATES. Stale bytes are never read (R72, R340): two decoders, or two states, that agree on all that is visible
still do after every operation.
-/

namespace Sys2Proof.Machine

/-- Four registers are the whole header (R34). -/
theorem Header.eq_of_take_four {h k : Header} (e : h.toList.take 4 = k.toList.take 4) : h = k := by
  cases h
  cases k
  simpa [Header.toList] using e

section Decoders
variable {c : Config} {b : Byte} {d e : Decoder}

/-- A visible cell reads the same. -/
theorem Decoder.SameVisible.bufRead (h : d.SameVisible e) {i : Nat} (hi : i < d.n) : d.bufRead i = e.bufRead i := by
  have hcells := h.cells
  rw [← h.n] at hcells
  exact List.map_inj_left.1 hcells i (List.mem_range.2 hi)

/-- A full header is visible as a whole. -/
theorem Decoder.SameVisible.hdr_eq (h : d.SameVisible e) (hd : d.hidx = 4) : d.hdr = e.hdr := by
  have htake := h.hdr
  rw [← h.hidx, hd] at htake
  exact Header.eq_of_take_four htake

theorem Decoder.SameVisible.withEsc (h : d.SameVisible e) (v : Bool) :
    Decoder.SameVisible { d with esc := v } { e with esc := v } :=
  { h with esc := rfl }

theorem Decoder.SameVisible.enterTerminal (h : d.SameVisible e) (p : PState) :
    (d.enterTerminal p).SameVisible (e.enterTerminal p) :=
  { h with pstate := rfl, esc := rfl }

theorem Decoder.SameVisible.outside (h : d.SameVisible e) : (d.outside c b).SameVisible (e.outside c b) := by
  unfold Decoder.outside
  split
  · exact Decoder.restart_sameVisible c d e
  · exact h

theorem Decoder.SameVisible.late_eq (h : d.SameVisible e) : d.late c = e.late c := by
  simp only [Decoder.late, h.pstate, h.elapsed]

theorem Decoder.SameVisible.timeoutCheck (h : d.SameVisible e) : (d.timeoutCheck c).SameVisible (e.timeoutCheck c) := by
  simp only [Decoder.timeoutCheck, ← h.late_eq]
  split
  · exact h.enterTerminal _
  · exact h

/-- The header byte stored becomes visible in both. -/
theorem Decoder.SameVisible.hdrWrite (h : d.SameVisible e) (hi : d.hidx < 4) :
    (d.hdrWrite c b).SameVisible (e.hdrWrite c b) :=
  { h with
    hidx := by simp [h.hidx]
    hdr := by
      have hi' : e.hidx < 4 := h.hidx ▸ hi
      simp only [Decoder.hdrWrite_hdr, Decoder.hdrWrite_hidx, Header.take_set _ _ _ hi, Header.take_set _ _ _ hi', h.hdr]
    csacc := by simp [h.csacc] }

/-- The range check reads a full header. -/
theorem Decoder.SameVisible.hdrStore (h : d.SameVisible e) (hi : d.hidx < 4) :
    (d.hdrStore c b).SameVisible (e.hdrStore c b) := by
  have hw := h.hdrWrite (c := c) (b := b) hi
  simp only [Decoder.hdrStore, ← h.hidx]
  split
  · rename_i h4
    have hbad : c.badRange (e.hdrWrite c b).hdr.destLow (e.hdrWrite c b).hdr.destHigh =
        c.badRange (d.hdrWrite c b).hdr.destLow (d.hdrWrite c b).hdr.destHigh := by rw [hw.hdr_eq h4]
    simp only [Decoder.headerComplete, hbad]
    split
    · exact hw.enterTerminal _
    · exact { hw with pstate := rfl }
  · exact hw

theorem Decoder.SameVisible.inHeader (h : d.SameVisible e) (hi : d.hidx < 4) :
    (d.inHeader c b).SameVisible (e.inHeader c b) := by
  simp only [Decoder.inHeader, ← h.esc]
  split_ifs
  · exact (h.withEsc false).hdrStore hi
  · exact h.withEsc true
  · exact Decoder.restart_sameVisible c d e
  · exact h.enterTerminal _
  · exact h.hdrStore hi

/-- What `append` folds is a visible cell, and the cell it writes becomes visible in both. -/
theorem Decoder.SameVisible.append (h : d.SameVisible e) (hn : d.n ≤ c.rxCap) :
    (d.append c b).SameVisible (e.append c b) := by
  rcases Nat.eq_or_lt_of_le hn with hn | hn
  · rw [Decoder.append_of_full hn, Decoder.append_of_full (h.n ▸ hn)]
    exact h.enterTerminal _
  · have hn' : e.n < c.rxCap := h.n ▸ hn
    have hcells : (d.append c b).cells (d.n + 1) = (e.append c b).cells (e.n + 1) := by
      rw [Decoder.cells_append hn, Decoder.cells_append hn', h.cells]
    rw [Decoder.append_of_lt hn, Decoder.append_of_lt hn'] at hcells ⊢
    refine { h with n := congrArg (· + 1) h.n, cells := hcells, csacc := ?_ }
    by_cases h0 : d.n = 0
    · simp [h0, ← h.n, h.csacc]
    · have := h.bufRead (i := d.n - 1) (by omega)
      simp [h0, ← h.n, h.csacc, this]

theorem Decoder.SameVisible.close (h : d.SameVisible e) : d.close.SameVisible e.close := by
  simp only [Decoder.close, ← h.n, ← h.csacc]
  split
  · exact h.enterTerminal _
  · rw [← h.bufRead (i := d.n - 1) (by omega)]
    split <;> exact h.enterTerminal _

theorem Decoder.SameVisible.inActive (h : d.SameVisible e) (hn : d.n ≤ c.rxCap) :
    (d.inActive c b).SameVisible (e.inActive c b) := by
  simp only [Decoder.inActive, ← h.esc]
  split_ifs
  · exact (h.withEsc false).append hn
  · exact h.withEsc true
  · exact h.close
  · exact h.append hn

theorem Decoder.SameVisible.feed (h : d.SameVisible e) (hd : d.Inv c) : (d.feed c b).SameVisible (e.feed c b) := by
  have hinv := hd.timeoutCheck
  have ht := h.timeoutCheck (c := c)
  simp only [Decoder.feed, Decoder.takeByte, ← ht.pstate]
  split
  · exact ht.inHeader (hinv.header_hidx ‹_›).1
  · exact ht.inActive hinv.n_le
  all_goals exact ht.outside

theorem Decoder.SameVisible.tick (h : d.SameVisible e) : (d.tick c).SameVisible (e.tick c) := by
  simp only [Decoder.tick, ← h.pstate, ← h.elapsed]
  split
  · exact { h with pstate := rfl, elapsed := rfl }
  · exact h

theorem Decoder.powerOn_sameVisible (c : Config) (d e : Decoder) : (d.powerOn c).SameVisible (e.powerOn c) :=
  ⟨rfl, rfl, rfl, rfl, rfl, rfl, rfl, rfl⟩

/-- A message in `Ready` is visible as a whole, by the invariant. -/
theorem Decoder.SameVisible.message_eq (h : d.SameVisible e) (hd : d.Inv c) (hr : d.pstate = .ready) :
    d.message = e.message ∧ d.messageChecksum = e.messageChecksum := by
  have hn := (hd.ready_verified hr).1
  have hbody : d.cells (d.n - 1) = e.cells (d.n - 1) := Decoder.cells_congr fun i hi => h.bufRead (by omega)
  have hhdr := h.hdr_eq (hd.active_hidx (.inr hr))
  constructor
  · simp only [Decoder.message, ← h.n, hbody, hhdr]
  · simp only [Decoder.messageChecksum, ← h.n, h.bufRead (i := d.n - 1) (by omega)]

end Decoders

section States
variable {s t : State}

theorem State.SameVisible.withStatus (h : s.SameVisible t) {d e : Decoder} (hd : d.SameVisible e) :
    (s.withStatus d).SameVisible (t.withStatus e) :=
  { h with dec := hd, obs := by simp [h.obs, hd.pstate] }

theorem State.SameVisible.record (h : s.SameVisible t) {r q : Result} (hr : r = q) :
    (s.record r).SameVisible (t.record q) :=
  { h with obs := by simp [h.obs, hr] }

theorem State.SameVisible.feedBytes (h : s.SameVisible t) (hs : s.dec.Inv s.cfg) (bs : List Byte) :
    (s.feedBytes bs).SameVisible (t.feedBytes bs) := by
  induction bs generalizing s t with
  | nil => exact h
  | cons b bs ih =>
    have hfeed : (s.feedByte b).SameVisible (t.feedByte b) := by
      have := h.withStatus (h.dec.feed (b := b) hs)
      rwa [State.feedByte, State.feedByte, ← h.cfg]
    exact ih hfeed (hs.feed b)

theorem State.SameVisible.accepts_iff (h : s.SameVisible t) : s.Accepts ↔ t.Accepts := by
  simp only [State.Accepts, h.cfg, h.txen]

/-- The two states have the same effect to come, up to unreadable bytes. -/
theorem State.SameVisible.effect (h : s.SameVisible t) (hs : s.dec.Inv s.cfg) {i : Instr} {s' : State}
    (he : Effect s i s') : ∃ t', Effect t i t' ∧ s'.SameVisible t' := by
  cases he with
  | feeds _ hf =>
    rw [h.cfg] at hf ⊢
    exact ⟨_, .feeds i hf, h.feedBytes hs _⟩
  | poll =>
    refine ⟨_, .poll, h.withStatus ?_⟩
    rw [← h.cfg]
    exact h.dec.timeoutCheck
  | tick =>
    refine ⟨_, .tick, { h with dec := ?_ }⟩
    rw [← h.cfg]
    exact h.dec.tick
  | reset =>
    refine ⟨_, .reset, { h with dec := ?_ }⟩
    rw [← h.cfg]
    exact Decoder.toIdle_sameVisible _ _ _
  | readMsg hr =>
    obtain ⟨hm, hc⟩ := h.dec.message_eq hs hr
    exact ⟨_, .readMsg (h.dec.pstate ▸ hr), h.record (by rw [hm, hc])⟩
  | send m hm hc =>
    rw [h.cfg] at hm hc ⊢
    rw [h.credit] at hc
    exact ⟨_, .send m hm hc, { h with cfg := rfl, obs := by rw [h.obs], credit := by rw [h.credit] }⟩
  | matchRange lo hi a => exact ⟨_, .matchRange lo hi a, h.record (by rw [h.cfg])⟩
  | dcStep s0 s1 => exact ⟨_, .dcStep s0 s1, { h with daisy := by rw [h.cfg, h.daisy] }⟩
  | grantTaken a hd ha h0 =>
    rw [h.cfg] at ha
    rw [h.daisy] at hd
    exact ⟨_, .grantTaken a hd ha h0, { h with myAddress := rfl, daisy := by rw [h.daisy] }⟩
  | grantIgnored a hn =>
    rw [h.cfg, h.daisy] at hn
    exact ⟨_, .grantIgnored a hn, h⟩
  | por =>
    refine ⟨_, .por, { h with dec := ?_, txen := rfl, daisy := rfl, myAddress := rfl }⟩
    rw [← h.cfg]
    exact Decoder.powerOn_sameVisible _ _ _

/-- The two states answer the same event alike: the stops read nothing that is stale (R310, R354). -/
theorem State.SameVisible.exec (h : s.SameVisible t) (hs : s.dec.Inv s.cfg) (i : Instr) :
    Answer.SameVisible (exec i s) (exec i t) := by
  cases he : Machine.exec i s with
  | next s' =>
    obtain ⟨ha, he⟩ := exec_eq_next_iff.1 he
    obtain ⟨t', het, hst⟩ := h.effect hs he
    rw [exec_eq_next_iff.2 ⟨h.accepts_iff.1 ha, het⟩]
    exact hst
  | fault f =>
    rw [exec_eq_fault_iff, h.accepts_iff, h.cfg, h.credit, ← exec_eq_fault_iff] at he
    rw [he]
    rfl
  | refused r =>
    rw [exec_eq_refused_iff, h.accepts_iff, h.cfg, h.txen, h.dec.pstate, ← exec_eq_refused_iff] at he
    rw [he]
    rfl

end States

/-- Settles O60: the two states wait, refuse, or run the same event. -/
theorem staleBytesAreNotObservable : Obligations.StaleBytesAreNotObservable := by
  intro s t hs _ h
  have hv := hs.cfg_valid
  unfold step
  rw [← h.cfg, ← h.pending, if_pos hv, if_pos hv]
  cases hp : s.pending with
  | nil => exact h
  | cons p rest =>
    cases hd : decode s.cfg p with
    | instr i =>
      have hrest : State.SameVisible { s with pending := rest } { t with cfg := s.cfg, pending := rest } :=
        { h with cfg := rfl, pending := rfl }
      simpa [hd] using hrest.exec hs.decoder i
    | reject r => simp [hd, Answer.SameVisible]

end Sys2Proof.Machine
end

section
/-!
SUPPORT and CERTIFICATES. The default checksum (42_checksum.md section 2): rotation is linear and additive, so a change of the
accumulator or of one byte goes through to the end rotated by the number of bytes after it.
-/

namespace Sys2Proof

section Rotation

/-- Rotation, bit by bit (R200). -/
theorem getLsbD_rotl8 (c : Byte) {k i : Nat} (hk : k < 8) (hi : i < 8) :
    (rotl8 c k).getLsbD i = c.getLsbD ((i + (8 - k)) % 8) := by
  unfold rotl8
  split
  · next h => simp [h, Nat.mod_eq_of_lt hi]
  · rw [BitVec.getLsbD_or, BitVec.getLsbD_shiftLeft, BitVec.getLsbD_ushiftRight]
    rcases Nat.lt_or_ge i k with h | h
    · rw [Nat.mod_eq_of_lt (by omega), Nat.add_comm i]
      simp [h]
    · rw [show i + (8 - k) = (i - k) + 8 by omega, Nat.add_mod_right, Nat.mod_eq_of_lt (by omega),
        BitVec.getLsbD_of_ge c (8 - k + i) (by omega)]
      simp [hi, Nat.not_lt.2 h]

theorem rotl8_xor (c d : Byte) {k : Nat} (hk : k < 8) : rotl8 (c ^^^ d) k = rotl8 c k ^^^ rotl8 d k :=
  BitVec.eq_of_getLsbD_eq fun i hi => by simp [getLsbD_rotl8 _ hk hi]

theorem rotl8_rotl8 (c : Byte) {j k : Nat} (hj : j < 8) (hk : k < 8) : rotl8 (rotl8 c j) k = rotl8 c ((j + k) % 8) :=
  BitVec.eq_of_getLsbD_eq fun i hi => by
    rw [getLsbD_rotl8 _ hk hi, getLsbD_rotl8 _ hj (Nat.mod_lt _ (by decide)),
      getLsbD_rotl8 _ (Nat.mod_lt _ (by decide)) hi]
    congr 1
    omega

theorem rotl8_zero (c : Byte) : rotl8 c 0 = c := if_pos rfl

/-- A rotated bit is the bit at the rotated place. -/
theorem rotl8_bit {j k : Nat} (hj : j < 8) (hk : k < 8) : rotl8 (1#8 <<< j) k = 1#8 <<< ((j + k) % 8) := by
  rw [← BitVec.twoPow_eq, ← BitVec.twoPow_eq]
  refine BitVec.eq_of_getLsbD_eq fun i hi => ?_
  have hmod : (j + k) % 8 < 8 := Nat.mod_lt _ (by decide)
  rw [getLsbD_rotl8 _ hk hi, BitVec.getLsbD_twoPow, BitVec.getLsbD_twoPow, decide_eq_true hj, decide_eq_true hmod]
  exact congrArg _ (decide_eq_decide.2 (by omega))

/-- No single bit is zero. -/
theorem bit_ne_zero {j : Nat} (hj : j < 8) : 1#8 <<< j ≠ 0 := fun h => by
  have := congrArg (BitVec.getLsbD · j) h
  simp [hj] at this

end Rotation

section Checksum
variable {c : Config} (hc : c.csFold = .rotXor)
include hc

/-- A changed accumulator leaves the change rotated by the number of bytes folded since (R205, R206). -/
theorem Config.foldl_fold_xor (acc e : Byte) (xs : List Byte) :
    xs.foldl c.fold (acc ^^^ e) = xs.foldl c.fold acc ^^^ rotl8 e (xs.length % 8) := by
  induction xs generalizing acc e with
  | nil => simp [rotl8_zero]
  | cons x xs ih =>
    have hfold : c.fold (acc ^^^ e) x = c.fold acc x ^^^ rotl8 e 1 := by
      simp only [Config.fold, hc, rotl8_xor acc e (by decide : 1 < 8)]
      ac_rfl
    rw [List.foldl_cons, List.foldl_cons, hfold, ih, rotl8_rotl8 _ (by decide) (Nat.mod_lt _ (by decide)),
      List.length_cons, show (1 + xs.length % 8) % 8 = (xs.length + 1) % 8 by omega]

/-- A changed byte leaves the change rotated by the number of bytes after it (R206). -/
theorem Config.checksum_set_xor {xs : List Byte} {i : Nat} {x : Byte} (hx : xs[i]? = some x) (e : Byte) :
    c.checksum (xs.set i (x ^^^ e)) = c.checksum xs ^^^ rotl8 e ((xs.length - 1 - i) % 8) := by
  obtain ⟨hi, rfl⟩ := List.getElem?_eq_some_iff.1 hx
  have hxs : xs.take i ++ xs[i] :: xs.drop (i + 1) = xs := by simp
  have hfold (acc : Byte) : c.fold acc (xs[i] ^^^ e) = c.fold acc xs[i] ^^^ e := by
    simp only [Config.fold, hc, BitVec.xor_assoc]
  conv => rhs; rw [← hxs]
  rw [List.set_eq_take_append_cons_drop, if_pos hi]
  simp only [Config.checksum, List.foldl_append, List.foldl_cons, hfold, Config.foldl_fold_xor hc]
  congr 2
  simp
  omega

/-- A flipped bit flips the one bit at the rotated place (R206). -/
theorem Config.checksum_flip {xs : List Byte} {i j : Nat} {x : Byte} (hx : xs[i]? = some x) (hj : j < 8) :
    c.checksum (xs.set i (x ^^^ (1#8 <<< j))) = c.checksum xs ^^^ (1#8 <<< ((j + xs.length - 1 - i) % 8)) := by
  obtain ⟨hi, -⟩ := List.getElem?_eq_some_iff.1 hx
  rw [Config.checksum_set_xor hc hx, rotl8_bit hj (Nat.mod_lt _ (by decide))]
  congr 2
  omega

/-- Two flips of one and the same checksum bit cancel. -/
theorem Config.checksum_flip_flip {xs : List Byte} {i k j l : Nat} {x y : Byte} (hik : i ≠ k) (hx : xs[i]? = some x)
    (hy : xs[k]? = some y) (hj : j < 8) (hl : l < 8)
    (h : (j + xs.length - 1 - i) % 8 = (l + xs.length - 1 - k) % 8) :
    c.checksum ((xs.set i (x ^^^ (1#8 <<< j))).set k (y ^^^ (1#8 <<< l))) = c.checksum xs := by
  have hy' : (xs.set i (x ^^^ (1#8 <<< j)))[k]? = some y := by rw [List.getElem?_set_ne hik, hy]
  rw [Config.checksum_flip hc hy' hl, Config.checksum_flip hc hx hj, List.length_set, h, BitVec.xor_assoc]
  simp

end Checksum

/-- The bytes of a list, each rotated by the number of bytes after it, `L` of them in all, added to `acc` (R205). -/
def xorRotated (L : Nat) (acc : Byte) (ps : List (Byte × Nat)) : Byte :=
  ps.foldl (fun a p => a ^^^ rotl8 p.1 ((L - 1 - p.2) % 8)) acc

/-- One more byte after them rotates the whole sum by one. -/
theorem xorRotated_succ {L : Nat} (acc : Byte) {ps : List (Byte × Nat)} (h : ∀ p ∈ ps, p.2 < L) :
    xorRotated (L + 1) (rotl8 acc 1) ps = rotl8 (xorRotated L acc ps) 1 := by
  induction ps generalizing acc with
  | nil => rfl
  | cons p ps ih =>
    have hp := h p (.head _)
    have hrot : rotl8 p.1 ((L + 1 - 1 - p.2) % 8) = rotl8 (rotl8 p.1 ((L - 1 - p.2) % 8)) 1 := by
      rw [rotl8_rotl8 _ (Nat.mod_lt _ (by decide)) (by decide)]
      congr 1
      omega
    have := ih (acc ^^^ rotl8 p.1 ((L - 1 - p.2) % 8)) fun q hq => h q (.tail _ hq)
    rw [rotl8_xor _ _ (by decide : 1 < 8), ← hrot] at this
    exact this

end Sys2Proof

namespace Sys2Proof.Machine

/-- Settles O29, by induction on the last byte: the bytes before it are rotated once more, and it is not rotated. -/
theorem checksumClosedForm : Obligations.ChecksumClosedForm := by
  intro c xs hc
  change c.checksum xs = xorRotated xs.length (rotl8 c.csSeed (xs.length % 8)) xs.zipIdx
  induction xs using List.reverseRecOn with
  | nil => simp [Config.checksum, xorRotated, rotl8_zero]
  | append_singleton xs x ih =>
    have hlt : ∀ p ∈ xs.zipIdx, p.2 < xs.length := fun p hp => (List.mem_zipIdx' hp).1
    have hseed : rotl8 c.csSeed ((xs.length + 1) % 8) = rotl8 (rotl8 c.csSeed (xs.length % 8)) 1 := by
      rw [rotl8_rotl8 _ (Nat.mod_lt _ (by decide)) (by decide)]
      congr 1
      omega
    have hlast : ∀ acc, xorRotated (xs.length + 1) acc (xs.zipIdx ++ [(x, xs.length)]) =
        xorRotated (xs.length + 1) acc xs.zipIdx ^^^ x := fun acc => by
      simp [xorRotated, rotl8_zero]
    rw [Config.checksum_append_singleton, ih, List.zipIdx_append, List.length_append, List.length_singleton, hseed]
    simp only [List.zipIdx_singleton, Nat.zero_add, hlast, xorRotated_succ _ hlt]
    simp [Config.fold, hc]

/-- Settles O30: a flip moves by one place for every byte after it, so a flip of the next byte's next bit, and one of the same
bit eight bytes on, cancel it. -/
theorem singleBitErrorFlipsOneChecksumBit : Obligations.SingleBitErrorFlipsOneChecksumBit := by
  intro c xs i j x y hc hx hj
  refine ⟨Config.checksum_flip hc hx hj, fun hy => ?_, fun hy => ?_⟩
  · obtain ⟨hi, -⟩ := List.getElem?_eq_some_iff.1 hy
    exact Config.checksum_flip_flip hc (j := 0) (l := 1) (by omega) hx hy (by decide) (by decide) (by omega)
  · obtain ⟨hi, -⟩ := List.getElem?_eq_some_iff.1 hy
    exact Config.checksum_flip_flip hc (by omega) hx hy hj hj (by omega)

end Sys2Proof.Machine
end

section
/-!
SUPPORT and CERTIFICATES. Wire units (R90 to R95): each is the `FEED`s of its bytes, and one that stands for a byte is one
`hdr_store` in `Header` and one `append` in `Active`.
-/

namespace Sys2Proof.Machine

/-- Feeding bytes replaces the decoder by the one `Decoder.feedAll` gives and adds results, and does nothing else. -/
theorem State.feedBytes_eq (s : State) (bs : List Byte) :
    ∃ results, s.feedBytes bs = { s with dec := s.dec.feedAll s.cfg bs, obs := s.obs ++ results } := by
  obtain ⟨d, results, h, -⟩ := s.feedBytes_frame bs
  have hd : (s.feedBytes bs).dec = d := by rw [h]
  exact ⟨results, by rw [h, ← hd, State.feedBytes_dec]⟩

/-- The events of a list that goes on, then one more. -/
theorem runEvents_append (es fs : List Instr) (s : State) {t : State} (h : runEvents es s = .next t) :
    runEvents (es ++ fs) s = runEvents fs t := by
  induction es generalizing s with
  | nil => cases h; rfl
  | cons e es ih =>
    rw [runEvents] at h
    rw [List.cons_append, runEvents]
    split at h
    · exact ih _ h
    · cases h
    · cases h

/-- `FEED`s given one at a time go on, as the bytes handed over together (R73, R82). -/
theorem runEvents_feeds {s : State} (h : s.Accepts) (bs : List Byte) :
    runEvents (bs.map .feed) s = .next (s.feedBytes bs) := by
  induction bs generalizing s with
  | nil => rfl
  | cons b bs ih =>
    rw [List.map_cons, runEvents, exec_feed_of_accepts h]
    exact ih (s := s.feedByte b) h

/-- An accepted wire unit goes on with its bytes fed. -/
theorem exec_unit_of_accepts {i : Instr} {s : State} (h : s.Accepts) (hf : fedBytes s.cfg i ≠ []) :
    exec i s = .next (s.feedBytes (fedBytes s.cfg i)) := by
  rw [exec_of_fedBytes hf, State.guarded_of_accepts h]

/-- The wire bytes that one unescaped byte `x` can have in a frame: `x` itself, or `ESC x` (R93, R95). -/
def Config.carries (c : Config) (x : Byte) (u : List Byte) : Prop :=
  u = [c.escByte, x] ∨ (u = [x] ∧ c.reserved x = false)

theorem Config.carries_escape (c : Config) (x : Byte) : Config.carries c x (c.escape x) := by
  unfold Config.escape
  cases hx : c.reserved x
  · exact .inr ⟨rfl, hx⟩
  · exact .inl rfl

/-- A well-formed unit that stands for a byte carries it. -/
theorem carries_of_carriedByte {c : Config} {i : Instr} {x : Byte} (hw : WellFormed c i = true)
    (h : carriedByte c i = some x) : Config.carries c x (fedBytes c i) := by
  cases i with
  | data d =>
    cases h
    exact .inr ⟨rfl, by simpa [WellFormed] using hw⟩
  | escStart | escEnd | escEsc | escData => cases h; exact .inl rfl
  | frameDestLow | frameDestHigh | frameSource | frameType | frameBody | frameChecksum =>
    cases h
    exact Config.carries_escape c _
  | startMark | endMark | escMark | frame | feed | poll | tick | reset | readMsg => cases h
  | send | matchRange | dcStep | dcGrant | por => cases h

theorem Config.carries.ne_nil {c : Config} {x : Byte} {u : List Byte} (h : Config.carries c x u) : u ≠ [] := by
  obtain rfl | ⟨rfl, -⟩ := h <;> simp

/-- Where a literal byte goes in a frame: to the next header register in `Header`, to the next cell in `Active`. -/
def Decoder.storeByte (c : Config) (b : Byte) (d : Decoder) : Decoder :=
  if d.pstate = .header then d.hdrStore c b else d.append c b

theorem Decoder.storeByte_of_header {c : Config} {d : Decoder} (h : d.pstate = .header) (b : Byte) :
    d.storeByte c b = d.hdrStore c b :=
  if_pos h

theorem Decoder.storeByte_of_active {c : Config} {d : Decoder} (h : d.pstate = .active) (b : Byte) :
    d.storeByte c b = d.append c b :=
  if_neg (by simp [h])

section Unit
variable {c : Config} {x : Byte} {u : List Byte} {d : Decoder}

/-- In a frame an unescaped `ESC` that comes in time only sets the flag (R134, R141). -/
theorem Decoder.feed_escByte (hp : d.pstate = .header ∨ d.pstate = .active) (he : d.esc = false)
    (ht : d.elapsed ≤ c.tMsg) : d.feed c c.escByte = { d with esc := true } := by
  rcases hp with hp | hp
  · rw [Decoder.feed_of_header hp ht, Decoder.inHeader_escByte he]
  · rw [Decoder.feed_of_active hp ht, Decoder.inActive_escByte he]

/-- In a frame a literal byte that comes in time clears the flag and is stored (R133, R137, R139, R145). -/
theorem Decoder.feed_literal (hp : d.pstate = .header ∨ d.pstate = .active) (ht : d.elapsed ≤ c.tMsg)
    (hx : d.esc = true ∨ c.reserved x = false) : d.feed c x = Decoder.storeByte c x { d with esc := false } := by
  rcases hp with hp | hp
  · rw [Decoder.feed_of_header hp ht, Decoder.inHeader_of_literal hx,
      Decoder.storeByte_of_header (d := { d with esc := false }) hp]
  · have hdata : d.esc = true ∨ (x ≠ c.escByte ∧ x ≠ c.endByte) :=
      hx.imp_right fun h => (((Config.not_reserved_iff c x).1 h).2).symm
    rw [Decoder.feed_of_active hp ht, Decoder.inActive_of_data hdata,
      Decoder.storeByte_of_active (d := { d with esc := false }) hp]

/-- A unit that carries `x` stores it: the flag that its `ESC` sets is clear again after `x`. -/
theorem Decoder.feedAll_carries (hu : Config.carries c x u) (hp : d.pstate = .header ∨ d.pstate = .active)
    (he : d.esc = false) (ht : d.elapsed ≤ c.tMsg) : d.feedAll c u = d.storeByte c x := by
  have hclear : { d with esc := false } = d := Decoder.clearEsc_of_esc_false he
  obtain rfl | ⟨rfl, hx⟩ := hu
  · rw [Decoder.feedAll_cons, Decoder.feed_escByte hp he ht]
    exact (Decoder.feed_literal (d := { d with esc := true }) hp ht (.inl rfl)).trans (by rw [hclear])
  · exact (Decoder.feed_literal hp ht (.inr hx)).trans (by rw [hclear])

end Unit

/-- Settles O6: both sides are the unit's bytes fed in order. -/
theorem wireUnitsCompleteAsTheirFeeds : Obligations.WireUnitsCompleteAsTheirFeeds :=
  fun _ _ ha hf => ⟨_, exec_unit_of_accepts ha hf, runEvents_feeds ha _⟩

/-- Settles O21: the unit's bytes are one `hdr_store` of the byte it carries. -/
theorem unitInHeaderStoresItsByte : Obligations.UnitInHeaderStoresItsByte := by
  intro i s x ha hw hx hp he ht hi
  have hu := carries_of_carriedByte hw hx
  obtain ⟨results, hfeed⟩ := s.feedBytes_eq (fedBytes s.cfg i)
  refine ⟨results, _, rfl, ?_⟩
  rw [exec_unit_of_accepts ha hu.ne_nil, hfeed, Decoder.feedAll_carries hu (.inl hp) he ht,
    Decoder.storeByte_of_header hp, ← Decoder.clearEsc_of_esc_false he, Decoder.hdrStore_eq hp hi]
  rfl

/-- Settles O22: the unit's bytes are one `append` of the byte it carries. -/
theorem unitInActiveAppendsItsByte : Obligations.UnitInActiveAppendsItsByte := by
  intro i s x ha hw hx hp he ht hn
  have hu := carries_of_carriedByte hw hx
  obtain ⟨results, hfeed⟩ := s.feedBytes_eq (fedBytes s.cfg i)
  refine ⟨results, s.dec.bufWrite s.cfg s.dec.n x, ?_, fun a => Decoder.bufRead_bufWrite s.cfg s.dec s.dec.n a x hn⟩
  rw [exec_unit_of_accepts ha hu.ne_nil, hfeed, Decoder.feedAll_carries hu (.inr hp) he ht,
    Decoder.storeByte_of_active hp, Decoder.append_of_lt hn]

end Sys2Proof.Machine
end

section
/-!
SUPPORT and CERTIFICATES. Receiving a frame (R183, R184, R207): what the decoder holds after the bytes so far, whatever their
escapes, and what its `END` makes of it.
-/

namespace Sys2Proof.Machine

/-- The wire bytes `us` carry the bytes `xs` of a frame, one unit each (R93, R95). -/
inductive Config.WireOf (c : Config) : List Byte → List Byte → Prop where
  | nil : Config.WireOf c [] []
  | cons {x : Byte} {u xs us : List Byte} (hu : Config.carries c x u) (h : Config.WireOf c xs us) :
      Config.WireOf c (x :: xs) (u ++ us)

section WireOf
variable {c : Config} {xs ys us vs : List Byte}

theorem Config.WireOf.append (h : Config.WireOf c xs us) (k : Config.WireOf c ys vs) :
    Config.WireOf c (xs ++ ys) (us ++ vs) := by
  induction h with
  | nil => exact k
  | cons hu _ ih => rw [List.cons_append, List.append_assoc]; exact .cons hu ih

theorem Config.wireOf_flatMap_escape (c : Config) (xs : List Byte) : Config.WireOf c xs (xs.flatMap c.escape) := by
  induction xs with
  | nil => exact .nil
  | cons x xs ih => exact .cons (Config.carries_escape c x) ih

end WireOf

/-- A list of frame bytes whose header, if it is whole, gives a valid range (R138). -/
def Config.rangeOk (c : Config) (xs : List Byte) : Prop :=
  ∀ lo hi src ty rest, xs = lo :: hi :: src :: ty :: rest → c.badRange lo hi = false

theorem Config.rangeOk.of_append {c : Config} {xs ys : List Byte} (h : Config.rangeOk c (xs ++ ys)) :
    Config.rangeOk c xs := fun lo hi src ty rest he => h lo hi src ty (rest ++ ys) (by simp [he])

theorem Config.rangeOk_of_header {c : Config} {lo hi src ty : Byte} {rest : List Byte} (h : c.badRange lo hi = false) :
    Config.rangeOk c (lo :: hi :: src :: ty :: rest) := by
  rintro _ _ _ _ _ ⟨⟩
  exact h

/-- The decoder holds the bytes `xs` of a frame that it has begun and not closed, with no escape pending and in time. -/
structure Decoder.Holds (c : Config) (xs : List Byte) (d : Decoder) : Prop where
  stored : d.hdr.toList.take d.hidx ++ d.cells d.n = xs
  covers : d.csacc = c.checksum d.covered
  place : (d.pstate = .header ∧ d.hidx < 4 ∧ d.n = 0) ∨ (d.pstate = .active ∧ d.hidx = 4)
  esc : d.esc = false
  in_time : d.elapsed ≤ c.tMsg

section Holds
variable {c : Config} {d : Decoder} {xs : List Byte}

/-- A `START` leaves a frame of no bytes (R132). -/
theorem Decoder.holds_restart (c : Config) (d : Decoder) : (d.restart c).Holds c [] where
  stored := rfl
  covers := rfl
  place := .inl ⟨rfl, by simp, rfl⟩
  esc := rfl
  in_time := Nat.zero_le _

theorem Decoder.Holds.length_eq (h : d.Holds c xs) : xs.length = d.hidx + d.n := by
  have hi : d.hidx ≤ 4 := by
    obtain ⟨-, hi, -⟩ | ⟨-, hi⟩ := h.place <;> omega
  simp [← h.stored, Header.toList, hi]

theorem Decoder.Holds.inFrame (h : d.Holds c xs) : d.pstate = .header ∨ d.pstate = .active :=
  h.place.imp And.left And.left

/-- The header register that a fourth byte completes holds the frame's first four bytes. -/
theorem Decoder.Holds.header_eq (h : d.Holds c xs) (hi : d.hidx = 3) (hn : d.n = 0) (x : Byte) :
    (d.hdr.set 3 x).toList = xs ++ [x] := by
  have htake := Header.take_set d.hdr 3 x (by decide)
  have hxs : d.hdr.toList.take 3 = xs := by simpa [hi, hn] using h.stored
  rwa [hxs] at htake

/-- A stored header byte is the frame's next byte (R137, R138). -/
theorem Decoder.Holds.hdrStore (h : d.Holds c xs) (hp : d.pstate = .header) (hi : d.hidx < 4) (hn : d.n = 0) {x : Byte}
    (hr : Config.rangeOk c (xs ++ [x])) : (d.hdrStore c x).Holds c (xs ++ [x]) := by
  have hstored : (d.hdrWrite c x).hdr.toList.take (d.hdrWrite c x).hidx ++ (d.hdrWrite c x).cells (d.hdrWrite c x).n =
      xs ++ [x] := by
    simp [← h.stored, hn, Header.take_set _ _ _ hi]
  have hcovers := Decoder.csacc_hdrWrite h.covers hi hn x
  obtain ⟨h3, hs⟩ | ⟨h3, hbad, -⟩ | ⟨h3, -, hs⟩ := d.hdrStore_cases c x
  · rw [hs]
    exact ⟨hstored, hcovers, .inl ⟨hp, by simp; omega, hn⟩, h.esc, h.in_time⟩
  · have := hr _ _ _ _ [] (h.header_eq h3 hn x).symm
    simp [hbad] at this
  · rw [hs]
    exact ⟨hstored, hcovers, .inr ⟨rfl, by simp [h3]⟩, h.esc, h.in_time⟩

/-- An appended byte is the frame's next byte (R140). -/
theorem Decoder.Holds.append (h : d.Holds c xs) (hp : d.pstate = .active) (hi : d.hidx = 4) (hn : d.n < c.rxCap)
    (x : Byte) : (d.append c x).Holds c (xs ++ [x]) := by
  have hstored : d.hdr.toList.take d.hidx ++ (d.append c x).cells (d.n + 1) = xs ++ [x] := by
    rw [Decoder.cells_append hn, ← List.append_assoc, h.stored]
  have hcovers := Decoder.csacc_append h.covers hn x
  rw [Decoder.append_of_lt hn] at hstored hcovers ⊢
  exact ⟨hstored, hcovers, .inr ⟨hp, hi⟩, h.esc, h.in_time⟩

/-- A unit that carries a byte adds it to the frame, while there is room and the range is valid. -/
theorem Decoder.Holds.unit (h : d.Holds c xs) {x : Byte} {u : List Byte} (hu : Config.carries c x u)
    (hlen : xs.length < 4 + c.rxCap) (hr : Config.rangeOk c (xs ++ [x])) : (d.feedAll c u).Holds c (xs ++ [x]) := by
  have hl := h.length_eq
  rw [Decoder.feedAll_carries hu h.inFrame h.esc h.in_time]
  obtain ⟨hp, hi, hn⟩ | ⟨hp, hi⟩ := h.place
  · rw [Decoder.storeByte_of_header hp]
    exact h.hdrStore hp hi hn hr
  · rw [Decoder.storeByte_of_active hp]
    exact h.append hp hi (by omega) x

/-- The units of a list of bytes add them in order. -/
theorem Decoder.Holds.feedAll {ys us : List Byte} (h : d.Holds c xs) (hw : Config.WireOf c ys us)
    (hlen : (xs ++ ys).length ≤ 4 + c.rxCap) (hr : Config.rangeOk c (xs ++ ys)) : (d.feedAll c us).Holds c (xs ++ ys) := by
  induction hw generalizing d xs with
  | nil => simpa using h
  | @cons x u ys us hu _ ih =>
    rw [show xs ++ x :: ys = (xs ++ [x]) ++ ys by simp] at hlen hr ⊢
    rw [Decoder.feedAll_append]
    exact ih (h.unit hu (by simp at hlen; omega) hr.of_append) hlen hr

/-- The unit of the fourth header byte takes an invalid range to `Ignored` (R138). -/
theorem Decoder.Holds.unit_ignored (h : d.Holds c xs) {x lo hi src ty : Byte} {u : List Byte} (hu : Config.carries c x u)
    (hx : xs ++ [x] = [lo, hi, src, ty]) (hbad : c.badRange lo hi = true) : (d.feedAll c u).pstate = .ignored := by
  have hl := h.length_eq
  have hl3 : xs.length + 1 = 4 := by simpa using congrArg List.length hx
  rw [Decoder.feedAll_carries hu h.inFrame h.esc h.in_time]
  obtain ⟨hp, -, hn⟩ | ⟨-, hi⟩ := h.place
  · have hhdr := h.header_eq (by omega) hn x
    rw [hx, Header.toList] at hhdr
    obtain ⟨hlo, hhi, -⟩ : _ ∧ _ ∧ _ := by simpa using hhdr
    rw [Decoder.storeByte_of_header hp]
    obtain ⟨h3, -⟩ | ⟨-, -, hs⟩ | ⟨-, hok, -⟩ := d.hdrStore_cases c x
    · omega
    · rw [hs]; rfl
    · rw [hlo, hhi, hbad] at hok
      cases hok
  · omega

/-- The units of a header with an invalid range end in `Ignored` (R138, R184). -/
theorem Decoder.Holds.feedAll_ignored {ys us : List Byte} {lo hi src ty : Byte} (h : d.Holds c xs)
    (hw : Config.WireOf c ys us) (hne : ys ≠ []) (hxy : xs ++ ys = [lo, hi, src, ty]) (hbad : c.badRange lo hi = true) :
    (d.feedAll c us).pstate = .ignored := by
  induction hw generalizing d xs with
  | nil => exact absurd rfl hne
  | @cons x u ys us hu hw ih =>
    rw [show xs ++ x :: ys = (xs ++ [x]) ++ ys by simp] at hxy
    rw [Decoder.feedAll_append]
    by_cases hys : ys = []
    · subst hys
      cases hw
      exact h.unit_ignored hu (by simpa using hxy) hbad
    · have hlen : xs.length + (ys.length + 1) = 4 := by simpa using congrArg List.length hxy
      have hpos : 0 < ys.length := List.length_pos_iff.2 hys
      refine ih (h.unit hu (by omega) ?_) hys hxy
      intro lo' hi' src' ty' rest he
      have : xs.length + 1 = rest.length + 4 := by simpa using congrArg List.length he
      omega

end Holds

section Close
variable {c : Config} {d : Decoder} {fs : List Byte} {k : Byte}

/-- With a header and one more byte held, that byte stands last in the buffer and `csacc` covers the rest (R36). -/
theorem Decoder.Holds.last (h : d.Holds c (fs ++ [k])) (hfs : 4 ≤ fs.length) :
    d.pstate = .active ∧ d.hidx = 4 ∧ 1 ≤ d.n ∧ d.covered = fs ∧ d.bufRead (d.n - 1) = k := by
  have hl := h.length_eq
  simp only [List.length_append, List.length_singleton] at hl
  obtain ⟨-, hi, hn⟩ | ⟨hp, hi⟩ := h.place
  · omega
  · have hn : 1 ≤ d.n := by omega
    have hcells : d.cells d.n = d.cells (d.n - 1) ++ [d.bufRead (d.n - 1)] := by
      rw [← Decoder.cells_succ, Nat.sub_add_cancel hn]
    have hstored := h.stored
    rw [hcells, ← List.append_assoc] at hstored
    obtain ⟨hcov, hlast⟩ := List.append_inj' hstored rfl
    exact ⟨hp, hi, hn, hcov, by simpa using hlast⟩

/-- The `END` of a frame: `Ready` exactly where the last byte is the checksum of the others (R142, R143). -/
theorem Decoder.Holds.feed_endByte (h : d.Holds c (fs ++ [k])) (hc : c.valid = true) (hfs : 4 ≤ fs.length) :
    d.feed c c.endByte = d.enterTerminal (if c.checksum fs = k then .ready else .aborted) := by
  obtain ⟨hp, -, hn, hcov, hlast⟩ := h.last hfs
  rw [Decoder.feed_of_active hp h.in_time, Decoder.inActive_endByte hc h.esc, Decoder.close, if_neg (by omega), h.covers,
    hcov, hlast]
  split <;> rfl

/-- The message that the bytes held are the fields of (R45). -/
theorem Decoder.Holds.message_eq {m : Message} (h : d.Holds c (m.fields ++ [k])) : d.message = m := by
  obtain ⟨-, hi, -, hcov, -⟩ := h.last (by simp [Message.fields])
  cases m
  simpa [Decoder.covered, hi, Header.toList, Message.fields, Decoder.message] using hcov

/-- A frame whose range is valid and whose body fits is received whole, and its `END` compares its last byte (R183, R207). -/
theorem Decoder.feedAll_framed {us : List Byte} (hc : c.valid = true) (hs : d.startsFrame = true)
    (hw : Config.WireOf c (fs ++ [k]) us) (hfs : 4 ≤ fs.length) (hmax : fs.length ≤ 4 + c.maxBody)
    (hr : Config.rangeOk c (fs ++ [k])) :
    ∃ e : Decoder, e.Holds c (fs ++ [k]) ∧
      d.feedAll c ([c.startByte] ++ us ++ [c.endByte]) =
        e.enterTerminal (if c.checksum fs = k then .ready else .aborted) := by
  have h := (Decoder.holds_restart c d).feedAll hw (by simp [Config.rxCap]; omega) hr
  rw [List.nil_append] at h
  refine ⟨_, h, ?_⟩
  rw [← h.feed_endByte hc hfs]
  simp only [Decoder.feedAll_append, Decoder.feedAll_cons, Decoder.feedAll_nil,
    Decoder.feed_startByte_eq_restart hc (.inl hs)]

/-- A header with an invalid range is `Ignored` as it is complete (R184). -/
theorem Decoder.feedAll_header_ignored {us : List Byte} {lo hi src ty : Byte} (hc : c.valid = true)
    (hs : d.startsFrame = true) (hw : Config.WireOf c [lo, hi, src, ty] us) (hbad : c.badRange lo hi = true) :
    (d.feedAll c ([c.startByte] ++ us)).pstate = .ignored := by
  rw [List.singleton_append, Decoder.feedAll_cons, Decoder.feed_startByte_eq_restart hc (.inl hs)]
  exact (Decoder.holds_restart c d).feedAll_ignored hw (by simp) rfl hbad

/-- Escaping and an `END` bring no `START` where the bytes hold none (R5). -/
theorem startByte_not_mem_escaped {ys : List Byte} (hc : c.valid = true) (h : c.startByte ∉ ys) :
    c.startByte ∉ ys.flatMap c.escape ++ [c.endByte] := by
  obtain ⟨hse, hsx, -⟩ := (Config.valid_iff c).1 hc
  simp only [List.mem_append, List.mem_flatMap, List.mem_singleton, not_or, not_exists, not_and]
  refine ⟨fun y hy hmem => ?_, hse⟩
  have hne : c.startByte ≠ y := fun he => h (he ▸ hy)
  unfold Config.escape at hmem
  split at hmem <;> simp [hsx, hne] at hmem

/-- From `Ignored` the rest of a frame leads nowhere while it holds no `START` (R131, R184). -/
theorem Decoder.feedAll_rest_ignored {ys : List Byte} (hc : c.valid = true) (hp : d.pstate = .ignored)
    (h : c.startByte ∉ ys) : (d.feedAll c (ys.flatMap c.escape ++ [c.endByte])).pstate = .ignored := by
  rw [Decoder.feedAll_of_outside (by rw [hp]; rfl) (startByte_not_mem_escaped hc h), hp]

end Close

/-- The range of a message is valid as R138 has it. -/
theorem Config.badRange_eq_false_iff (c : Config) (lo hi : Byte) :
    c.badRange lo hi = false ↔ hi = c.wildcard ∨ lo ≤ hi := by
  simp only [Config.badRange, Bool.and_eq_false_iff, bne_eq_false_iff_eq, decide_eq_false_iff_not, BitVec.not_lt]

/-- A whole frame with a valid range is received as its message (R183). -/
theorem Decoder.feedAll_encodeFrame {c : Config} {d : Decoder} {m : Message} (hc : c.valid = true)
    (hs : d.startsFrame = true) (hm : m.body.length ≤ c.maxBody) (hr : c.badRange m.destLow m.destHigh = false) :
    (d.feedAll c (c.encodeFrame m)).pstate = .ready ∧ (d.feedAll c (c.encodeFrame m)).message = m ∧
      (d.feedAll c (c.encodeFrame m)).messageChecksum = c.checksum m.fields := by
  have hlen : m.fields.length = 4 + m.body.length := by simp [Message.fields]; omega
  obtain ⟨e, he, hfeed⟩ := Decoder.feedAll_framed hc hs
    (Config.wireOf_flatMap_escape c (m.fields ++ [c.checksum m.fields])) (by omega) (by omega)
    (Config.rangeOk_of_header hr)
  rw [if_pos rfl] at hfeed
  rw [Config.encodeFrame, hfeed]
  exact ⟨rfl, he.message_eq, (he.last (by omega)).2.2.2.2⟩

/-- A whole frame is its header, and the rest. -/
theorem Config.encodeFrame_eq (c : Config) (m : Message) :
    c.encodeFrame m =
      [c.startByte] ++ [m.destLow, m.destHigh, m.source, m.type].flatMap c.escape ++
        ((m.body ++ [c.checksum m.fields]).flatMap c.escape ++ [c.endByte]) := by
  simp [Config.encodeFrame, Message.fields]

/-- Settles O26: the unit is its bytes fed, and they are received as the message. -/
theorem frameUnitIsDecoded : Obligations.FrameUnitIsDecoded := by
  intro s m ha hs hm hr
  have hdec := Decoder.feedAll_encodeFrame ha.1 hs hm ((Config.badRange_eq_false_iff _ _ _).2 hr)
  rw [← State.feedBytes_dec] at hdec
  exact ⟨_, exec_unit_of_accepts (i := .frame m) ha (by simp [fedBytes, Config.encodeFrame]), hdec⟩

/-- Settles O27: the header is `Ignored`, and the rest of the frame leaves it so while it holds no `START`. -/
theorem frameUnitWithInvalidRangeIsIgnored : Obligations.FrameUnitWithInvalidRangeIsIgnored := by
  intro s m ha hs _ hw hlt
  have hbad : s.cfg.badRange m.destLow m.destHigh = true := by simp [Config.badRange, hw, hlt]
  have hhdr := Decoder.feedAll_header_ignored (src := m.source) (ty := m.type) ha.1 hs
    (Config.wireOf_flatMap_escape _ _) hbad
  refine ⟨⟨_, runEvents_feeds ha _, by rwa [State.feedBytes_dec]⟩, _,
    exec_unit_of_accepts (i := .frame m) ha (by simp [fedBytes, Config.encodeFrame]), fun hstart => ?_⟩
  rw [State.feedBytes_dec, fedBytes, Config.encodeFrame_eq, Decoder.feedAll_append]
  exact Decoder.feedAll_rest_ignored ha.1 hhdr hstart

end Sys2Proof.Machine
end

section
/-!
SUPPORT and CERTIFICATES. The round trip under ticks (R183, R221): ticks that do not pass the bound move the timer alone, and no
byte that comes in time reads it.
-/

namespace Sys2Proof.Machine

/-- The decoder with another reading of its timer. -/
def Decoder.withElapsed (d : Decoder) (k : Nat) : Decoder := { d with elapsed := k }

theorem Decoder.withElapsed_ite (p : Prop) [Decidable p] (d e : Decoder) (k : Nat) :
    (if p then d else e).withElapsed k = if p then d.withElapsed k else e.withElapsed k :=
  apply_ite (Decoder.withElapsed · k) p d e

section Timer
variable {c : Config} {b : Byte} {d : Decoder} {k : Nat}

theorem Decoder.outside_withElapsed (k : Nat) :
    ∃ l ≤ k, (d.withElapsed k).outside c b = (d.outside c b).withElapsed l := by
  unfold Decoder.outside
  split
  · exact ⟨0, Nat.zero_le k, rfl⟩
  · exact ⟨k, le_rfl, rfl⟩

theorem Decoder.hdrStore_withElapsed (k : Nat) :
    (d.withElapsed k).hdrStore c b = (d.hdrStore c b).withElapsed k := by
  rw [Decoder.hdrStore, Decoder.hdrStore, Decoder.headerComplete, Decoder.headerComplete, Decoder.withElapsed_ite,
    Decoder.withElapsed_ite]
  rfl

theorem Decoder.append_withElapsed (k : Nat) : (d.withElapsed k).append c b = (d.append c b).withElapsed k := by
  rw [Decoder.append, Decoder.append, Decoder.withElapsed_ite]
  rfl

theorem Decoder.close_withElapsed (k : Nat) : (d.withElapsed k).close = d.close.withElapsed k := by
  rw [Decoder.close, Decoder.close, Decoder.withElapsed_ite, Decoder.withElapsed_ite]
  rfl

theorem Decoder.inHeader_withElapsed (k : Nat) :
    ∃ l ≤ k, (d.withElapsed k).inHeader c b = (d.inHeader c b).withElapsed l := by
  rw [Decoder.inHeader, Decoder.inHeader, show (d.withElapsed k).esc = d.esc from rfl]
  split_ifs
  · exact ⟨k, le_rfl, Decoder.hdrStore_withElapsed (d := { d with esc := false }) k⟩
  · exact ⟨k, le_rfl, rfl⟩
  · exact ⟨0, Nat.zero_le k, rfl⟩
  · exact ⟨k, le_rfl, rfl⟩
  · exact ⟨k, le_rfl, Decoder.hdrStore_withElapsed k⟩

theorem Decoder.inActive_withElapsed (k : Nat) : (d.withElapsed k).inActive c b = (d.inActive c b).withElapsed k := by
  rw [Decoder.inActive, Decoder.inActive, show (d.withElapsed k).esc = d.esc from rfl]
  split_ifs
  · exact Decoder.append_withElapsed (d := { d with esc := false }) k
  · rfl
  · exact Decoder.close_withElapsed k
  · exact Decoder.append_withElapsed k

/-- A byte that comes in time does not read the timer, and at most clears it (R130, R132). -/
theorem Decoder.feed_withElapsed (hd : d.elapsed ≤ c.tMsg) (hk : k ≤ c.tMsg) :
    ∃ l ≤ k, (d.withElapsed k).feed c b = (d.feed c b).withElapsed l := by
  have hintime (e : Decoder) (he : e.elapsed ≤ c.tMsg) : e.feed c b = e.takeByte c b := by
    rw [Decoder.feed, Decoder.timeoutCheck_of_not_late (Decoder.not_late_of_le he)]
  rw [hintime _ hd, hintime _ hk]
  unfold Decoder.takeByte
  rw [show (d.withElapsed k).pstate = d.pstate from rfl]
  cases d.pstate with
  | header => exact Decoder.inHeader_withElapsed k
  | active => exact ⟨k, le_rfl, Decoder.inActive_withElapsed k⟩
  | idle | ready | ignored | aborted | overflowed | timedOut => exact Decoder.outside_withElapsed k

theorem Decoder.feed_elapsed_le (hd : d.elapsed ≤ c.tMsg) : (d.feed c b).elapsed ≤ d.elapsed := by
  obtain ⟨l, hl, h⟩ := Decoder.feed_withElapsed (b := b) hd hd
  exact (congrArg Decoder.elapsed h).trans_le hl

end Timer

/-- A tick moves the timer by one at most (R221). -/
theorem Decoder.tick_withElapsed (c : Config) (d : Decoder) (k : Nat) :
    ∃ l ≤ k + 1, (d.withElapsed k).tick c = d.withElapsed l := by
  unfold Decoder.tick
  split
  · exact ⟨k + 1, le_rfl, rfl⟩
  · exact ⟨k, Nat.le_succ k, rfl⟩

theorem exec_tick_of_accepts {s : State} (h : s.Accepts) : exec .tick s = .next { s with dec := s.dec.tick s.cfg } :=
  State.guarded_of_accepts h _

/-- `FEED`s with ticks between them that stay within the bound leave the decoder that the bytes alone leave, but for the
timer. -/
theorem runEvents_feedOrTick {s : State} {es : List Instr} {d : Decoder} {k : Nat} (ha : s.Accepts)
    (hes : es.all isFeedOrTick = true) (hs : s.dec = d.withElapsed k) (hd : d.elapsed ≤ s.cfg.tMsg)
    (hk : k + es.count .tick ≤ s.cfg.tMsg) :
    ∃ t l, runEvents es s = .next t ∧ t.cfg = s.cfg ∧ t.txen = s.txen ∧
      t.dec = (d.feedAll s.cfg (es.filterMap fedByte)).withElapsed l := by
  induction es generalizing s d k with
  | nil => exact ⟨s, k, rfl, rfl, rfl, hs⟩
  | cons e es ih =>
    rw [List.all_cons, Bool.and_eq_true] at hes
    obtain ⟨he, hes⟩ := hes
    cases e with
    | feed b =>
      rw [List.count_cons_of_ne (by simp)] at hk
      obtain ⟨l, hl, hfeed⟩ := Decoder.feed_withElapsed (b := b) hd (by omega : k ≤ s.cfg.tMsg)
      have hle := Decoder.feed_elapsed_le (b := b) hd
      rw [runEvents, exec_feed_of_accepts ha, hs, hfeed]
      exact ih ha hes rfl (hle.trans hd) (by simp; omega)
    | tick =>
      rw [List.count_cons_self] at hk
      obtain ⟨l, hl, htick⟩ := Decoder.tick_withElapsed s.cfg d k
      rw [runEvents, exec_tick_of_accepts ha, hs, htick]
      exact ih ha hes rfl hd (by simp; omega)
    | _ => cases he

/-- The last result of events that end with a `FEED` is the decoder's state (R104, R110). -/
theorem runEvents_getLast?_obs {s t : State} {es : List Instr} {b : Byte} (h : runEvents es s = .next t)
    (hlast : es.getLast? = some (.feed b)) : t.obs.getLast? = some (.status t.dec.pstate.code) := by
  induction es generalizing s with
  | nil => cases hlast
  | cons e es ih =>
    rw [runEvents] at h
    split at h
    · rename_i u hu
      cases es with
      | nil =>
        cases h
        obtain rfl : e = .feed b := by simpa using hlast
        obtain ⟨ha, -⟩ := exec_eq_next_iff.1 hu
        rw [exec_feed_of_accepts ha] at hu
        cases hu
        simp
      | cons f fs => exact ih h (by simpa using hlast)
    · cases h
    · cases h

theorem exec_readMsg_of_ready {s : State} (h : s.Accepts) (hr : s.dec.pstate = .ready) :
    exec .readMsg s = .next (s.record (.message s.dec.message s.dec.messageChecksum)) := by
  rw [exec, execReadMsg, State.guarded_of_accepts h, if_pos hr]

/-- Settles O25: after the `START` the timer is 0 and the ticks keep it within the bound, so the decoder is the one that the
frame's bytes alone leave, which is `Ready` with the message. -/
theorem frameBytesRoundTrip : Obligations.FrameBytesRoundTrip := by
  intro s m events ha hs hm hr hall hbytes hhead hlast hticks
  obtain ⟨rest, rfl⟩ := List.head?_eq_some_iff.1 hhead
  have hstart := exec_feed_startByte_of_accepts ha (.inl hs)
  have hall' : rest.all isFeedOrTick = true := by simpa [isFeedOrTick] using hall
  rw [List.count_cons_of_ne (by simp)] at hticks
  obtain ⟨t, l, hrun, hcfg, htxen, hdec⟩ := runEvents_feedOrTick (s := s.withStatus (s.dec.restart s.cfg))
    (d := s.dec.restart s.cfg) (k := 0) ha hall' rfl (Nat.zero_le _) (by simpa using hticks)
  have hrun' : runEvents (.feed s.cfg.startByte :: rest) s = .next t := by rw [runEvents, hstart]; exact hrun
  have hframe : (s.dec.restart s.cfg).feedAll s.cfg (rest.filterMap fedByte) = s.dec.feedAll s.cfg (s.cfg.encodeFrame m) := by
    rw [← hbytes]
    simp [fedByte, Decoder.feed_startByte_eq_restart ha.1 (.inl hs)]
  obtain ⟨hready, hmsg, hcs⟩ := Decoder.feedAll_encodeFrame ha.1 hs hm ((Config.badRange_eq_false_iff _ _ _).2 hr)
  have hdec' : t.dec = (s.dec.feedAll s.cfg (s.cfg.encodeFrame m)).withElapsed l := by rw [← hframe]; exact hdec
  have htready : t.dec.pstate = .ready := by rw [hdec']; exact hready
  have htacc : t.Accepts := ⟨by rw [hcfg]; exact ha.1, by rw [htxen]; exact ha.2⟩
  refine ⟨t, hrun', ?_, ?_⟩
  · rw [runEvents_getLast?_obs hrun' hlast, htready]
    rfl
  · rw [exec_readMsg_of_ready htacc htready, hdec']
    exact congrArg _ (congrArg₂ (fun m cs => t.record (.message m cs)) hmsg hcs)

end Sys2Proof.Machine
end

section
/-!
SUPPORT and CERTIFICATES. A frame with one flipped bit that keeps its framing (R207): what the wire then carries differs from the
frame in one byte, so the checksum no longer agrees with its fields.
-/

namespace Sys2Proof.Machine

section Flip
variable {c : Config} {i j : Nat} {x y : Byte}

/-- The wire bytes of a frame with byte `i` replaced by a unit that carries `y`. -/
theorem Config.wireOf_set (zs : List Byte) {u : List Byte} (hi : i < zs.length) (hu : Config.carries c y u) :
    Config.WireOf c (zs.set i y)
      ((zs.take i).flatMap c.escape ++ u ++ (zs.drop (i + 1)).flatMap c.escape) := by
  rw [List.set_eq_take_append_cons_drop, if_pos hi, List.append_assoc]
  exact (Config.wireOf_flatMap_escape c _).append (.cons hu (Config.wireOf_flatMap_escape c _))

/-- A flip that keeps the framing replaces a unit by a unit: an escaped byte stays escaped, and an unescaped one does not
become reserved (R207). -/
theorem Config.carries_of_framing (h : c.reserved x = true ∨ c.reserved y = false) :
    Config.carries c y (if c.reserved x then [c.escByte, y] else [y]) := by
  cases hx : c.reserved x with
  | true => exact .inl rfl
  | false => exact .inr ⟨rfl, by simpa [hx] using h⟩

/-- Whether a field or the checksum byte is hit, the last byte is then not the checksum of the others (R206, R207). -/
theorem Config.flipped_checksum_ne (hc : c.csFold = .rotXor) {fs : List Byte}
    (hx : (fs ++ [c.checksum fs])[i]? = some x) (hj : j < 8) :
    ∃ gs k, (fs ++ [c.checksum fs]).set i (x ^^^ (1#8 <<< j)) = gs ++ [k] ∧ gs.length = fs.length ∧ c.checksum gs ≠ k := by
  rcases Nat.lt_or_ge i fs.length with hi | hi
  · rw [List.getElem?_append_left hi] at hx
    refine ⟨_, _, List.set_append_left i _ hi, List.length_set, fun h => ?_⟩
    rw [Config.checksum_flip hc hx hj] at h
    exact bit_ne_zero (Nat.mod_lt _ (by decide)) (xor_left_eq_self_iff.1 h)
  · obtain ⟨hlt, -⟩ := List.getElem?_eq_some_iff.1 hx
    simp only [List.length_append, List.length_singleton] at hlt
    obtain rfl : i = fs.length := by omega
    obtain rfl : c.checksum fs = x := by simpa using hx
    refine ⟨fs, c.checksum fs ^^^ (1#8 <<< j), by simp, rfl, fun h => ?_⟩
    exact bit_ne_zero hj (xor_left_eq_self_iff.1 h.symm)

/-- The destination of a message after byte `i` of its fields is replaced: the rest of its header is only kept for a
destination byte. -/
theorem Message.set_fields (m : Message) (k : Byte) (i : Nat) (y : Byte) :
    ∃ src ty rest, (m.fields ++ [k]).set i y =
      (if i = 0 then y else m.destLow) :: (if i = 1 then y else m.destHigh) :: src :: ty :: rest := by
  match i with
  | 0 | 1 | 2 | 3 | _ + 4 => exact ⟨_, _, _, rfl⟩

end Flip

/-- A flip in the destination that makes the range invalid is `Ignored` as the header is complete, and the rest of the frame
leaves it so while it holds no `START` (R184, R207). -/
theorem Decoder.feedAll_flipped_ignored {c : Config} {d : Decoder} {m : Message} {k y : Byte} {i : Nat} {u : List Byte}
    (hc : c.valid = true) (hs : d.startsFrame = true) (hi : i < 2) (hu : Config.carries c y u)
    (hbad : c.badRange (if i = 0 then y else m.destLow) (if i = 1 then y else m.destHigh) = true) :
    (d.feedAll c ([c.startByte] ++ ((m.fields ++ [k]).take i).flatMap c.escape ++ u ++
        (((m.fields ++ [k]).take 4).drop (i + 1)).flatMap c.escape)).pstate = .ignored ∧
      (c.startByte ∉ m.body ++ [k] →
        (d.feedAll c ([c.startByte] ++ ((m.fields ++ [k]).take i).flatMap c.escape ++ u ++
          ((m.fields ++ [k]).drop (i + 1)).flatMap c.escape ++ [c.endByte])).pstate = .ignored) := by
  have hhdr : (d.feedAll c ([c.startByte] ++ ((m.fields ++ [k]).take i).flatMap c.escape ++ u ++
      (((m.fields ++ [k]).take 4).drop (i + 1)).flatMap c.escape)).pstate = .ignored := by
    have hw := Config.wireOf_set ((m.fields ++ [k]).take 4) (i := i) (by simp [Message.fields]; omega) hu
    have htake : ((m.fields ++ [k]).take 4).take i = (m.fields ++ [k]).take i := by
      rw [List.take_take, Nat.min_eq_left (by omega)]
    have hset : ((m.fields ++ [k]).take 4).set i y =
        [if i = 0 then y else m.destLow, if i = 1 then y else m.destHigh, m.source, m.type] := by
      match i, hi with
      | 0, _ | 1, _ => rfl
    rw [htake, hset] at hw
    simpa only [List.append_assoc] using Decoder.feedAll_header_ignored hc hs hw hbad
  refine ⟨hhdr, fun hstart => ?_⟩
  have hdrop : (m.fields ++ [k]).drop (i + 1) = ((m.fields ++ [k]).take 4).drop (i + 1) ++ (m.body ++ [k]) := by
    match i, hi with
    | 0, _ | 1, _ => rfl
  rw [hdrop, List.flatMap_append, ← List.append_assoc, List.append_assoc _ _ [c.endByte], Decoder.feedAll_append]
  exact Decoder.feedAll_rest_ignored hc hhdr hstart

/-- Settles O31: with the range valid the flipped frame is received whole and its checksum disagrees; a range made invalid is
made so by a flip in the destination. -/
theorem framedSingleBitErrorIsRejected : Obligations.FramedSingleBitErrorIsRejected := by
  rintro s m bytes _ i j x y ha hs hc hm hr rfl hx hj hy hframing rfl
  have hu := Config.carries_of_framing hframing
  refine ⟨_, runEvents_feeds ha _, ?_⟩
  rw [State.feedBytes_dec]
  by_cases hbad : s.cfg.badRange (if i = 0 then y else m.destLow) (if i = 1 then y else m.destHigh) = true
  · rw [if_pos hbad]
    have hi : i < 2 := by
      by_contra h
      rw [if_neg (by omega), if_neg (by omega), hr] at hbad
      cases hbad
    obtain ⟨hhdr, hend⟩ := Decoder.feedAll_flipped_ignored (d := s.dec) ha.1 hs hi hu hbad
    exact ⟨⟨_, runEvents_feeds ha _, by rwa [State.feedBytes_dec]⟩, hend⟩
  · rw [if_neg hbad]
    obtain ⟨hi, -⟩ := List.getElem?_eq_some_iff.1 hx
    have hw := Config.wireOf_set _ hi hu
    have hlen : m.fields.length = 4 + m.body.length := by simp [Message.fields]; omega
    obtain ⟨src, ty, rest, hset⟩ := Message.set_fields m (s.cfg.checksum m.fields) i y
    obtain ⟨gs, k, hgs, hgl, hne⟩ := Config.flipped_checksum_ne hc hx hj
    rw [← hy] at hgs
    have hrange : Config.rangeOk s.cfg (gs ++ [k]) := by
      rw [← hgs, hset]
      exact Config.rangeOk_of_header (by simpa using hbad)
    rw [hgs] at hw
    obtain ⟨e, -, hfeed⟩ := Decoder.feedAll_framed ha.1 hs hw (by omega) (by omega) hrange
    simp only [List.append_assoc] at hfeed ⊢
    rw [hfeed, if_neg hne]
    rfl

end Sys2Proof.Machine
end

section
/-!
SUPPORT and CERTIFICATES. The other events, each as one update of the state: the step itself (R80), `RESET`, `READ_MSG` and
`SEND`, the timer (R221 to R223), the matcher (R240), and power-on (R340).
-/

namespace Sys2Proof.Machine

/-- A frame is in progress exactly in `Header` and `Active` (R221). -/
theorem PState.inFrame_iff (p : PState) : p.inFrame = true ↔ p = .header ∨ p = .active := by
  cases p <;> simp [PState.inFrame]

/-- A message is late exactly where it is in progress and more than `T_MSG` ticks have passed (R222). -/
theorem Decoder.late_iff (c : Config) (d : Decoder) :
    d.late c = true ↔ (d.pstate = .header ∨ d.pstate = .active) ∧ c.tMsg < d.elapsed := by
  simp [Decoder.late, PState.inFrame_iff]

/-- A tick moves the timer alone (R221). -/
theorem Decoder.tick_eq (c : Config) (d : Decoder) :
    d.tick c =
      { d with
        elapsed := if (d.pstate = .header ∨ d.pstate = .active) ∧ d.elapsed ≤ c.tMsg then d.elapsed + 1 else d.elapsed } := by
  simp only [Decoder.tick, Bool.and_eq_true, PState.inFrame_iff, decide_eq_true_eq]
  split <;> rfl

theorem exec_poll_of_accepts {s : State} (h : s.Accepts) : exec .poll s = .next (s.withStatus (s.dec.timeoutCheck s.cfg)) :=
  State.guarded_of_accepts h _

theorem exec_matchRange_of_accepts {s : State} (h : s.Accepts) (lo hi a : Byte) :
    exec (.matchRange lo hi a) s = .next (s.record (.matched (s.cfg.matchAddr lo hi a))) :=
  State.guarded_of_accepts h _

theorem exec_por_of_accepts {s : State} (h : s.Accepts) :
    exec .por s = .next
      { s with
        dec := s.dec.powerOn s.cfg, txen := false
        daisy := { dstate := .unconfigured, up := none, drive0 := false, drive1 := false }
        myAddress := 0 } :=
  State.guarded_of_accepts h _

theorem runEvents_singleton (i : Instr) (s : State) : runEvents [i] s = exec i s := by
  rw [runEvents]
  cases exec i s <;> rfl

/-- `k` ticks in a frame count up to one past the bound (R221, D34). -/
theorem runEvents_ticks {s : State} (h : s.Accepts) (hp : s.dec.pstate = .header ∨ s.dec.pstate = .active) (k : Nat) :
    ∃ e, runEvents (List.replicate k .tick) s = .next { s with dec := { s.dec with elapsed := e } } ∧
      (s.cfg.tMsg < e ↔ s.cfg.tMsg < s.dec.elapsed + k) := by
  induction k generalizing s with
  | zero => exact ⟨s.dec.elapsed, rfl, by simp⟩
  | succ k ih =>
    rw [List.replicate_succ, runEvents, exec_tick_of_accepts h, Decoder.tick_eq]
    by_cases ht : s.dec.elapsed ≤ s.cfg.tMsg
    · obtain ⟨e, hrun, he⟩ := ih (s := { s with dec := { s.dec with elapsed := s.dec.elapsed + 1 } }) h hp
      rw [if_pos ⟨hp, ht⟩]
      exact ⟨e, hrun, he.trans (by simp only; omega)⟩
    · obtain ⟨e, hrun, he⟩ := ih h hp
      rw [if_neg (by tauto)]
      exact ⟨e, hrun, he.trans (by omega)⟩

/-- The matcher as one condition (R240 with its corner case). -/
theorem Config.matchAddr_iff (c : Config) (lo hi a : Byte) :
    c.matchAddr lo hi a = true ↔ a ≠ 0 ∧ lo ≠ c.ctrlAddr ∧ lo ≤ a ∧ (hi = c.wildcard ∨ (lo ≤ hi ∧ a ≤ hi)) := by
  unfold Config.matchAddr
  split_ifs with h0 hc hw hlt
  · simp [h0]
  · simp [hc]
  · rw [decide_eq_true_iff]
    tauto
  · have := BitVec.not_le.2 hlt
    tauto
  · have := BitVec.not_lt.1 hlt
    rw [Bool.and_eq_true, decide_eq_true_iff, decide_eq_true_iff]
    tauto

theorem Config.matchAddr_eq (c : Config) (lo hi a : Byte) :
    c.matchAddr lo hi a = decide (a ≠ 0 ∧ lo ≠ c.ctrlAddr ∧ lo ≤ a ∧ (hi = c.wildcard ∨ (lo ≤ hi ∧ a ≤ hi))) := by
  rw [Bool.eq_iff_iff, Config.matchAddr_iff, decide_eq_true_iff]

/-- `E(x)` with its condition written out (R92, R93). -/
theorem Config.escape_eq (c : Config) (x : Byte) :
    c.escape x = if x = c.startByte ∨ x = c.endByte ∨ x = c.escByte then [c.escByte, x] else [x] := by
  simp [Config.escape, Config.reserved, or_assoc]

/-- An address other than 0 is at least 1. -/
theorem one_le_of_ne_zero {a : Byte} (h : a ≠ 0) : 1 ≤ a := by
  bv_omega

/-- Settles O4: behind the configuration check the step matches on the list and on what its first item decodes to. -/
theorem stepRunsTheDecodedEvent : Obligations.StepRunsTheDecodedEvent := by
  intro s p rest i hv hp hd
  simp [step, hv, hp, hd]

/-- Settles O5: a step with an empty list is the waiting one. -/
theorem stepWithoutEventChangesNothing : Obligations.StepWithoutEventChangesNothing := by
  intro s hv hp
  exact step_eq_next_iff.2 ⟨hv, .inl ⟨hp, rfl⟩⟩

/-- Settles O19: what it states is `toIdle` written out. -/
theorem resetClearsOnlyTheDecoder : Obligations.ResetClearsOnlyTheDecoder := fun _ ha => exec_reset_of_accepts ha

/-- Settles O20: what it states is the message and its checksum written out (R45). -/
theorem readMsgReturnsTheMessage : Obligations.ReadMsgReturnsTheMessage := fun _ ha hr => exec_readMsg_of_ready ha hr

/-- Settles O24: the bytes are the frame's, and a transport that completes them leaves `txen` off again. -/
theorem sendEmitsTheFrameAndChangesNothing : Obligations.SendEmitsTheFrameAndChangesNothing := by
  rintro s m _ bytes ha hm rfl hbytes hcredit
  have hframe : bytes = s.cfg.encodeFrame m := by
    rw [hbytes, Config.encodeFrame, funext (Config.escape_eq s.cfg)]
    rfl
  rw [hframe] at hcredit ⊢
  exact exec_eq_next_iff.2 ⟨ha, .send m hm hcredit⟩

/-- Settles O32, by what a tick does to the decoder. -/
theorem tickAdvancesOnlyTheTimer : Obligations.TickAdvancesOnlyTheTimer := by
  intro s ha
  rw [exec_tick_of_accepts ha, Decoder.tick_eq]

/-- Settles O33, by whether the message is late. -/
theorem pollTimesOutAfterTheBound : Obligations.PollTimesOutAfterTheBound := by
  intro s ha
  rw [exec_poll_of_accepts ha]
  cases hl : s.dec.late s.cfg with
  | true =>
    rw [Decoder.timeoutCheck_of_late hl, if_pos ((Decoder.late_iff _ _).1 hl)]
    rfl
  | false =>
    rw [Decoder.timeoutCheck_of_not_late hl, if_neg (fun h => by simp [(Decoder.late_iff _ _).2 h] at hl)]
    rfl

/-- Settles O34: a late byte meets R131 in `TimedOut`. -/
theorem lateByteIsJudgedInTimedOut : Obligations.LateByteIsJudgedInTimedOut := by
  intro s b ha hp ht
  rw [exec_feed_of_accepts ha, Decoder.feed_of_late ((Decoder.late_iff _ _).2 ⟨hp, ht⟩)]
  rfl

/-- Settles O35: the ticks move the timer, and the `POLL` compares it with the bound. -/
theorem silentTransportTimesOut : Obligations.SilentTransportTimesOut := by
  intro s k ha hp
  obtain ⟨e, hrun, he⟩ := runEvents_ticks ha hp k
  have hpoll := exec_poll_of_accepts (s := { s with dec := { s.dec with elapsed := e } }) ha
  have hlate := Decoder.late_iff s.cfg { s.dec with elapsed := e }
  simp only [hp, true_and, he] at hlate
  refine ⟨_, (runEvents_append _ _ _ hrun).trans ((runEvents_singleton _ _).trans hpoll), ?_⟩
  rw [State.withStatus_dec, Decoder.timeoutCheck, apply_ite Decoder.pstate]
  simp only [hlate]
  rfl

/-- Settles O36: the matcher's tests are one condition. -/
theorem matchAnswersTheRangeRule : Obligations.MatchAnswersTheRangeRule := by
  intro s lo hi a ha
  rw [exec_matchRange_of_accepts ha, Config.matchAddr_eq]
  rfl

/-- Settles O37, each by the range rule. -/
theorem matchOfTheSourceExamples : Obligations.MatchOfTheSourceExamples := by
  intro s lo hi a ha
  simp only [exec_matchRange_of_accepts ha, Config.matchAddr_eq]
  refine ⟨fun hc hw => ⟨?_, ?_, ?_⟩, by simp⟩
  all_goals congr 3
  · refine decide_eq_decide.2 ⟨fun ⟨_, _, h5, _⟩ => h5, fun h5 => ⟨?_, by rw [hc]; decide, h5, .inl trivial⟩⟩
    bv_omega
  · refine decide_eq_decide.2 ⟨fun ⟨_, _, h5, h10⟩ => ⟨h5, ?_⟩, fun ⟨h5, h10⟩ => ⟨?_, by rw [hc]; decide, h5, ?_⟩⟩
    · exact h10.elim (fun h => absurd h.symm hw) And.right
    · bv_omega
    · exact .inr ⟨by decide, h10⟩
  · simp [hc]

/-- Settles O38, each by the range rule. -/
theorem destinationFormsMatchTheirNodes : Obligations.DestinationFormsMatchTheirNodes := by
  intro c a b lo hi hc hw ha
  simp only [Config.matchAddr_iff, Config.expandDest, hc]
  refine ⟨fun hb hbw => ⟨fun ⟨_, _, hle, hge⟩ => ?_, ?_⟩, fun hlo hle hhi => by tauto, fun hlo => by tauto, ?_, ?_, ?_⟩
  · exact BitVec.le_antisymm (hge.elim (fun h => absurd h hbw) And.right) hle
  · rintro rfl
    exact ⟨ha, hb, BitVec.le_refl a, .inr ⟨BitVec.le_refl a, BitVec.le_refl a⟩⟩
  · exact ⟨ha, by decide, one_le_of_ne_zero ha, .inl trivial⟩
  · simp [Config.matchAddr_eq, hc]
  · simp [Config.forController, hc]

/-- Settles O52, by evaluation. -/
theorem statusCodesAreTheTables : Obligations.StatusCodesAreTheTables :=
  ⟨rfl, rfl, rfl, fun s => by simp [State.claimReq]⟩

/-- Settles O55: the header is the new draw. -/
theorem porSetsEveryPieceOfState : Obligations.PorSetsEveryPieceOfState := fun _ ha => ⟨_, exec_por_of_accepts ha⟩

/-- Settles O56, by evaluation. -/
theorem resetHoldsThePowerOnValues : Obligations.ResetHoldsThePowerOnValues :=
  ⟨rfl, rfl, rfl, rfl, rfl, rfl, rfl, rfl, rfl, rfl, rfl, rfl, rfl, rfl⟩

end Sys2Proof.Machine
end

section
/-!
SUPPORT and CERTIFICATES. The daisy-chain FSM and `myAddress` (45_daisy_chain.md): what each event does to them, and that the
codec and the FSM keep out of each other's state (R273).
-/

namespace Sys2Proof.Machine

/-- An accepted grant that can be taken is recorded (R265, R266). -/
theorem exec_dcGrant_of_taken {s : State} {a : Byte} (h : s.Accepts)
    (hg : s.daisy.dstate = .claimingAddress ∧ a ≠ s.cfg.ctrlAddr ∧ a ≠ 0) :
    exec (.dcGrant a) s = .next { s with myAddress := a, daisy := { s.daisy with dstate := .enablingDownstream } } :=
  exec_eq_next_iff.2 ⟨h, .grantTaken a hg.1 hg.2.1 hg.2.2⟩

/-- Every other accepted grant is ignored (R265, R78). -/
theorem exec_dcGrant_of_ignored {s : State} {a : Byte} (h : s.Accepts)
    (hg : ¬(s.daisy.dstate = .claimingAddress ∧ a ≠ s.cfg.ctrlAddr ∧ a ≠ 0)) : exec (.dcGrant a) s = .next s :=
  exec_eq_next_iff.2 ⟨h, .grantIgnored a hg⟩

/-- Everything an event can do to the FSM and to `myAddress`. -/
theorem exec_daisy_cases {i : Instr} {s t : State} (h : exec i s = .next t) :
    (t.daisy = s.daisy ∧ t.myAddress = s.myAddress) ∨
    (∃ s0 s1, i = .dcStep s0 s1 ∧ t.daisy = s.daisy.step s.cfg s0 s1 ∧ t.myAddress = s.myAddress) ∨
    (∃ a, i = .dcGrant a ∧ s.daisy.dstate = .claimingAddress ∧ a ≠ s.cfg.ctrlAddr ∧ a ≠ 0 ∧
      t.daisy = { s.daisy with dstate := .enablingDownstream } ∧ t.myAddress = a) ∨
    (i = .por ∧ t.daisy = ⟨.unconfigured, none, false, false⟩ ∧ t.myAddress = 0) := by
  obtain ⟨-, he⟩ := exec_eq_next_iff.1 h
  cases he with
  | feeds => exact .inl ⟨State.feedBytes_daisy _ _, State.feedBytes_myAddress _ _⟩
  | poll | tick | reset | readMsg | send | matchRange | grantIgnored => exact .inl ⟨rfl, rfl⟩
  | dcStep s0 s1 => exact .inr (.inl ⟨s0, s1, rfl, rfl, rfl⟩)
  | grantTaken a hd ha h0 => exact .inr (.inr (.inl ⟨a, rfl, hd, ha, h0, rfl, rfl⟩))
  | por => exact .inr (.inr (.inr ⟨rfl, rfl, rfl⟩))

/-- What stays of the FSM from `s` to `t` while there is no power-on (R41, R268, R269): a resolved upstream link, `Configured`,
and a driven link; and the one way a link comes to be driven. -/
structure Daisy.KeepsTopology (s t : Daisy) : Prop where
  up : s.up ≠ none → t.up = s.up
  configured : s.dstate = .configured → t.dstate = .configured
  driven : ∀ l, s.drive l = true → t.drive l = true
  asserted : ∀ l, s.drive l = false → t.drive l = true →
    s.dstate = .enablingDownstream ∧ t.dstate = .configured ∧ s.up = some l.other

/-- Where the links are driven alike, nothing is released and nothing asserted. -/
theorem Daisy.KeepsTopology.of_same_drives {s t : Daisy} (hup : s.up ≠ none → t.up = s.up)
    (hc : s.dstate = .configured → t.dstate = .configured) (h : ∀ l, t.drive l = s.drive l) : s.KeepsTopology t :=
  ⟨hup, hc, fun l hl => (h l).trans hl, fun l hf ht => by rw [h l, hf] at ht; cases ht⟩

/-- Which links are driven does not depend on the state register (R42). -/
theorem Daisy.drive_withDState (d : Daisy) (p : DState) (l : Link) : Daisy.drive { d with dstate := p } l = d.drive l := by
  cases l <;> rfl

/-- A `DC_STEP` keeps the topology: `Unconfigured` has none, and the step that asserts a link is R267's. -/
theorem Daisy.Inv.step_keepsTopology {c : Config} {d : Daisy} {a : Byte} (h : d.Inv c a) (s0 s1 : Bool) :
    d.KeepsTopology (d.step c s0 s1) := by
  obtain ⟨hd, hs⟩ | ⟨hd, l, -, hs⟩ | ⟨hd, hu, -⟩ | ⟨hd, l, hu, hs⟩ | ⟨-, hs⟩ := d.step_cases c s0 s1
  · obtain ⟨h0, h1⟩ := h.drive_before (by simp [hd])
    rw [hs]
    exact .of_same_drives (fun hn => absurd (h.up_resolved.2 (.inl hd)) hn) (by simp [hd])
      fun l => by cases l <;> simp [Daisy.drive, h0, h1]
  · rw [hs]
    exact .of_same_drives (fun hn => absurd (h.up_resolved.2 (.inr hd)) hn) (by simp [hd]) fun l => by cases l <;> rfl
  · have := h.up_resolved.1 hu
    simp [hd] at this
  · rw [hs]
    have hdrive (k : Link) (hk : k ≠ l.other) :
        Daisy.drive { d.assertLink l.other with dstate := .configured } k = d.drive k :=
      (Daisy.drive_withDState _ _ k).trans (Daisy.drive_assertLink_other d _ _ hk)
    have hother : Daisy.drive { d.assertLink l.other with dstate := .configured } l.other = true :=
      (Daisy.drive_withDState _ _ _).trans (Daisy.drive_assertLink_same d _)
    refine ⟨fun _ => by simp, fun _ => rfl, fun k hk => ?_, fun k hf ht => ?_⟩
    · by_cases hkl : k = l.other
      · rw [hkl, hother]
      · rw [hdrive k hkl, hk]
    · by_cases hkl : k = l.other
      · exact ⟨hd, rfl, by rw [hkl, Link.other_other, hu]⟩
      · rw [hdrive k hkl, hf] at ht
        cases ht
  · rw [hs]
    exact .of_same_drives (fun _ => rfl) id fun _ => rfl

/-- The state with another daisy chain and address. -/
def State.withDaisy (s : State) (d : Daisy) (a : Byte) : State := { s with daisy := d, myAddress := a }

/-- Feeding bytes does not read the daisy chain (R273). -/
theorem State.feedBytes_withDaisy (s : State) (d : Daisy) (a : Byte) (bs : List Byte) :
    (s.withDaisy d a).feedBytes bs = (s.feedBytes bs).withDaisy d a := by
  induction bs generalizing s with
  | nil => rfl
  | cons b bs ih => exact ih (s.feedByte b)

/-- An event of the codec goes the same way whatever the daisy chain's state (R273). -/
theorem Effect.withDaisy {s t : State} {i : Instr} (h : Effect s i t) (hi : isDaisyEvent i = false) (hp : i ≠ .por)
    (d : Daisy) (a : Byte) : Effect (s.withDaisy d a) i (t.withDaisy d a) := by
  cases h with
  | feeds _ hf =>
    rw [← State.feedBytes_withDaisy]
    exact .feeds i hf
  | poll => exact .poll
  | tick => exact .tick
  | reset => exact .reset
  | readMsg hr => exact .readMsg hr
  | send m hm hc => exact .send m hm hc
  | matchRange l r b => exact .matchRange l r b
  | dcStep | grantTaken | grantIgnored => cases hi
  | por => exact absurd rfl hp

/-- An event of the daisy chain feeds no byte. -/
theorem fedBytes_of_isDaisyEvent {i : Instr} (c : Config) (h : isDaisyEvent i = true) : fedBytes c i = [] := by
  cases i with
  | dcStep | dcGrant => rfl
  | _ => cases h

/-- An event of the daisy chain goes the same way whatever the decoder's state, and leaves it and the results alone (R273). -/
theorem Effect.withDec {s t : State} {i : Instr} (h : Effect s i t) (hi : isDaisyEvent i = true) (d : Decoder) :
    Effect { s with dec := d } i { t with dec := d } ∧ t.dec = s.dec ∧ t.obs = s.obs := by
  cases h with
  | dcStep s0 s1 => exact ⟨.dcStep s0 s1, rfl, rfl⟩
  | grantTaken a hd ha h0 => exact ⟨.grantTaken a hd ha h0, rfl, rfl⟩
  | grantIgnored a hg => exact ⟨.grantIgnored a hg, rfl, rfl⟩
  | feeds _ hf => exact absurd (fedBytes_of_isDaisyEvent s.cfg hi) hf
  | poll | tick | reset | readMsg | send | matchRange | por => cases hi

/-- Settles O39: the first arm of R260 reads no sample. -/
theorem unconfiguredStepReleasesTheLinks : Obligations.UnconfiguredStepReleasesTheLinks := by
  intro s s0 s1 ha hd
  rw [exec_dcStep_of_accepts ha, Daisy.step, hd]

/-- Settles O40, by the four pairs of samples. -/
theorem firstAssertedLinkBecomesUpstream : Obligations.FirstAssertedLinkBecomesUpstream := by
  intro s ha hd
  simp [exec_dcStep_of_accepts ha, Daisy.step, hd]

/-- Settles O41: neither arm changes the FSM. -/
theorem claimingAndConfiguredStepsChangeNothing : Obligations.ClaimingAndConfiguredStepsChangeNothing := by
  intro s s0 s1 ha hd
  rcases hd with hd | hd <;> rw [exec_dcStep_of_accepts ha, Daisy.step, hd]

/-- Settles O43: the grant can be taken. -/
theorem grantIsRecorded : Obligations.GrantIsRecorded :=
  fun _ _ ha hd hc h0 => exec_dcGrant_of_taken ha ⟨hd, hc, h0⟩

/-- Settles O44: the grant cannot be taken. -/
theorem otherGrantsAreIgnored : Obligations.OtherGrantsAreIgnored :=
  fun _ _ ha h => exec_dcGrant_of_ignored ha (by tauto)

/-- Settles O45, by what an event can do to `myAddress`. -/
theorem addressIsWrittenOnlyByAnAcceptedGrant : Obligations.AddressIsWrittenOnlyByAnAcceptedGrant := by
  intro i s t he hne
  obtain ⟨-, h⟩ | ⟨_, _, -, -, h⟩ | ⟨a, rfl, hd, hc, h0, hdaisy, rfl⟩ | ⟨rfl, -, h⟩ := exec_daisy_cases he
  · exact absurd h hne
  · exact absurd h hne
  · exact .inl ⟨rfl, hd, hc, h0, by rw [hdaisy]⟩
  · exact .inr ⟨rfl, h⟩

/-- Settles O46, by what an event can do to the FSM. -/
theorem topologyIsFixedUntilPor : Obligations.TopologyIsFixedUntilPor := by
  intro i s t hinv he hpor
  have h : s.daisy.KeepsTopology t.daisy := by
    obtain ⟨h, -⟩ | ⟨s0, s1, -, h, -⟩ | ⟨a, -, hd, -, -, h, -⟩ | ⟨rfl, -⟩ := exec_daisy_cases he
    · rw [h]
      exact .of_same_drives (fun _ => rfl) id fun _ => rfl
    · rw [h]
      exact hinv.daisy.step_keepsTopology s0 s1
    · rw [h]
      exact .of_same_drives (fun _ => rfl) (by simp [hd]) (Daisy.drive_withDState _ _)
    · exact absurd rfl hpor
  exact ⟨h.up, h.configured, fun l => ⟨h.driven l, h.asserted l⟩⟩

/-- Settles O47, by the effect of the event. -/
theorem codecAndDaisyChainAreIndependent : Obligations.CodecAndDaisyChainAreIndependent := by
  intro i s t he hpor
  obtain ⟨ha, heff⟩ := exec_eq_next_iff.1 he
  refine ⟨fun hi d a => ⟨exec_eq_next_iff.2 ⟨ha, heff.withDaisy hi hpor d a⟩, ?_⟩, fun hi d => ?_⟩
  · obtain h | ⟨_, _, rfl, -⟩ | ⟨_, rfl, -⟩ | ⟨rfl, -⟩ := exec_daisy_cases he
    · exact h
    · cases hi
    · cases hi
    · exact absurd rfl hpor
  · obtain ⟨heff', hdec, hobs⟩ := heff.withDec hi d
    exact ⟨exec_eq_next_iff.2 ⟨ha, heff'⟩, hdec, hobs⟩

end Sys2Proof.Machine
end

section
/-!
SUPPORT and CERTIFICATES. A chain from power-on (R270 to R272): a node's FSM is given by its state and its near link alone, and
the chain is configured from the controller outward.
-/

namespace Sys2Proof.Machine

/-- The FSM of a chain's node in state `p`: it has the near link upstream once it has seen its enable, and drives the far link
once it is configured. -/
def Daisy.wired (near : Link) : DState → Daisy
  | .unconfigured => ⟨.unconfigured, none, false, false⟩
  | .awaitingEnable => ⟨.awaitingEnable, none, false, false⟩
  | .claimingAddress => ⟨.claimingAddress, some near, false, false⟩
  | .enablingDownstream => ⟨.enablingDownstream, some near, false, false⟩
  | .configured => Daisy.assertLink ⟨.configured, some near, false, false⟩ near.other

/-- The state a `DC_STEP` of such a node leads to when its near wire reads `v` (R261 to R268). -/
def DState.next (v : Bool) : DState → DState
  | .unconfigured => .awaitingEnable
  | .awaitingEnable => if v then .claimingAddress else .awaitingEnable
  | .claimingAddress => .claimingAddress
  | .enablingDownstream => .configured
  | .configured => .configured

/-- The states in which a node has seen its enable. -/
def DState.past : DState → Bool
  | .claimingAddress | .enablingDownstream | .configured => true
  | .unconfigured | .awaitingEnable => false

/-- The states in which a node has its address. -/
def DState.named : DState → Bool
  | .enablingDownstream | .configured => true
  | .unconfigured | .awaitingEnable | .claimingAddress => false

theorem DState.past_of_named {p : DState} (h : p.named = true) : p.past = true := by
  cases p with
  | enablingDownstream | configured => rfl
  | _ => cases h

section Wired
variable (near : Link) (p : DState)

@[simp] theorem Daisy.wired_dstate : (Daisy.wired near p).dstate = p := by
  cases p <;> simp [Daisy.wired]

@[simp] theorem Daisy.wired_drive_near : (Daisy.wired near p).drive near = false := by
  cases near <;> cases p <;> rfl

@[simp] theorem Daisy.wired_drive_far : (Daisy.wired near p).drive near.other = (p == .configured) := by
  cases near <;> cases p <;> rfl

theorem Daisy.wired_up : (Daisy.wired near p).up = if p.past then some near else none := by
  cases p <;> simp [Daisy.wired, DState.past]

end Wired

/-- The levels of the two links of a node, link 0 first, given those of its near and its far wire. -/
def linkLevels (near : Link) (n f : Bool) : Bool × Bool :=
  match near with
  | .link0 => (n, f)
  | .link1 => (f, n)

theorem Chain.sample_eq (c : Chain) (k : Nat) (x : ChainNode) :
    c.sample k x =
      .dcStep (linkLevels x.nearLink (c.wire k) (c.wire (k + 1))).1 (linkLevels x.nearLink (c.wire k) (c.wire (k + 1))).2 := by
  unfold Chain.sample linkLevels
  cases x.nearLink <;> rfl

/-- A `DC_STEP` keeps a node so wired, where its far wire is low while it waits (R262, R271). -/
theorem Daisy.wired_step (c : Config) (near : Link) (p : DState) (n f : Bool) (hf : p = .awaitingEnable → f = false) :
    (Daisy.wired near p).step c (linkLevels near n f).1 (linkLevels near n f).2 = Daisy.wired near (p.next n) := by
  cases p with
  | awaitingEnable =>
    rw [hf rfl]
    cases near <;> cases n <;> rfl
  | enablingDownstream => cases near <;> rfl
  | unconfigured | claimingAddress => rfl
  | configured => cases near <;> rfl

/-- A node whose FSM is the one of its state. -/
def ChainNode.Wired (x : ChainNode) : Prop := x.block.daisy = Daisy.wired x.nearLink x.block.daisy.dstate

theorem ChainNode.wired_of_fresh {x : ChainNode} (h : x.fresh = true) : x.Wired ∧ x.block.daisy.dstate = .unconfigured := by
  simp only [ChainNode.fresh, Bool.and_eq_true, beq_iff_eq] at h
  obtain ⟨⟨hd, -⟩, -⟩ := h
  simp [ChainNode.Wired, hd, Daisy.wired]

theorem ChainNode.Wired.driveNear {x : ChainNode} (h : x.Wired) : x.driveNear = false := by
  rw [ChainNode.driveNear, h, Daisy.wired_drive_near]

theorem ChainNode.Wired.driveFar {x : ChainNode} (h : x.Wired) : x.driveFar = (x.block.daisy.dstate == .configured) := by
  rw [ChainNode.driveFar, h, Daisy.wired_drive_far, Daisy.wired_dstate]

/-- The invariant of a chain: its nodes are wired, and every node nearer the controller than one that has seen its enable is
configured (R270, R271). -/
structure Chain.Inv (c : Chain) : Prop where
  wired : ∀ (k : Nat) (x : ChainNode), c.nodes[k]? = some x → x.Wired
  front : ∀ (j k : Nat) (x y : ChainNode), j < k → c.nodes[j]? = some x → c.nodes[k]? = some y →
    y.block.daisy.dstate.past = true → x.block.daisy.dstate = .configured

/-- One node's state and address before and after a move that is no power-on, its near wire reading `v`, and the address that the
move grants, if any. -/
inductive NodeMove (v : Bool) (grant : Option Byte) : DState → Byte → DState → Byte → Prop where
  | stay (p : DState) (a : Byte) : NodeMove v grant p a p a
  | await (a : Byte) : NodeMove v grant .unconfigured a .awaitingEnable a
  | claim (a : Byte) (hv : v = true) : NodeMove v grant .awaitingEnable a .claimingAddress a
  | granted (a g : Byte) (hg : grant = some g) : NodeMove v grant .claimingAddress a .enablingDownstream g
  | finish (a : Byte) : NodeMove v grant .enablingDownstream a .configured a

/-- The step of a node is one of its moves. -/
theorem NodeMove.next (v : Bool) (grant : Option Byte) (p : DState) (a : Byte) : NodeMove v grant p a (p.next v) a := by
  cases p with
  | unconfigured => exact .await a
  | awaitingEnable =>
    cases v
    · exact .stay _ a
    · exact .claim a rfl
  | claimingAddress | configured => exact .stay _ a
  | enablingDownstream => exact .finish a

/-- `Configured` is not left. -/
theorem NodeMove.configured {v : Bool} {grant : Option Byte} {p q : DState} {a b : Byte} (h : NodeMove v grant p a q b)
    (hp : p = .configured) : q = .configured := by
  subst hp
  cases h
  rfl

/-- A node sees its enable only on a high near wire. -/
theorem NodeMove.wire_of_past {v : Bool} {grant : Option Byte} {p q : DState} {a b : Byte} (h : NodeMove v grant p a q b)
    (hp : ¬p.past = true) (hq : q.past = true) : v = true := by
  cases h with
  | stay => exact absurd hq hp
  | await => cases hq
  | claim _ hv => exact hv
  | granted | finish => exact absurd rfl hp

/-- A node has its address by an earlier claim, or by a grant taken now. -/
theorem NodeMove.named_cases {v : Bool} {grant : Option Byte} {p q : DState} {a b : Byte} (h : NodeMove v grant p a q b)
    (hq : q.named = true) : (p.named = true ∧ b = a) ∨ (p = .claimingAddress ∧ grant = some b) := by
  cases h with
  | stay => exact .inl ⟨hq, rfl⟩
  | await | claim => cases hq
  | granted _ _ hg => exact .inr ⟨rfl, hg⟩
  | finish => exact .inl ⟨rfl, rfl⟩

section Moves
variable {c d : Chain}

theorem Chain.Inv.nearDrive (h : c.Inv) (k : Nat) : c.nearDrive k = false := by
  unfold Chain.nearDrive
  cases hx : c.nodes[k]? with
  | none => rfl
  | some x => exact (h.wired k x hx).driveNear

theorem Chain.Inv.farDrive (h : c.Inv) {k : Nat} {x : ChainNode} (hx : c.nodes[k]? = some x) :
    c.farDrive k = (x.block.daisy.dstate == .configured) := by
  rw [Chain.farDrive, hx]
  exact (h.wired k x hx).driveFar

/-- The far wire of a node is driven exactly once the node is configured (R270, R271). -/
theorem Chain.Inv.wire_succ (h : c.Inv) {k : Nat} {x : ChainNode} (hx : c.nodes[k]? = some x) :
    c.wire (k + 1) = (x.block.daisy.dstate == .configured) := by
  rw [Chain.wire, h.farDrive hx, h.nearDrive, Bool.or_false]

/-- Where the near wire of a node is high, every node nearer the controller is configured (R271). -/
theorem Chain.Inv.front_of_wire (h : c.Inv) {j k : Nat} {x y : ChainNode} (hjk : j < k) (hx : c.nodes[j]? = some x)
    (hy : c.nodes[k]? = some y) (hw : c.wire k = true) : x.block.daisy.dstate = .configured := by
  obtain ⟨k, rfl⟩ : ∃ i, k = i + 1 := ⟨k - 1, by omega⟩
  obtain ⟨hlt, -⟩ := List.getElem?_eq_some_iff.1 hy
  obtain ⟨z, hz⟩ : ∃ z, c.nodes[k]? = some z := ⟨_, List.getElem?_eq_getElem (by omega)⟩
  have hzc : z.block.daisy.dstate = .configured := by simpa [h.wire_succ hz] using hw
  rcases Nat.lt_succ_iff_lt_or_eq.1 hjk with hlt | rfl
  · exact h.front j k x z hlt hx hz (by rw [hzc]; rfl)
  · rw [← hzc, Option.some.inj (hx.symm.trans hz)]

/-- Everything a move that is no power-on can do to the nodes. -/
theorem Chain.Inv.move_cases (h : c.Inv) {m : ChainMove} (hm : c.move m = some d) (hpor : m.isPor = false) :
    (m.grant? = none ∧ d.nodes = c.nodes) ∨
    ∃ k x t, c.nodes[k]? = some x ∧ d.nodes = c.nodes.set k { x with block := t } ∧
      ChainNode.Wired { x with block := t } ∧
      NodeMove (c.wire k) m.grant? x.block.daisy.dstate x.block.myAddress t.daisy.dstate t.myAddress := by
  obtain ⟨-, hact⟩ := Chain.move_eq_some_iff.1 hm
  obtain ⟨v, rfl, rfl⟩ | ⟨k, x, t, rfl, hx, he, rfl⟩ | ⟨k, i, x, t, rfl, hi, hx, he, rfl⟩ := Chain.act_cases hact
  · exact .inl ⟨rfl, rfl⟩
  · have hw := h.wired k x hx
    refine .inr ⟨k, x, t, hx, rfl, ?_⟩
    rw [Chain.sample_eq] at he
    obtain ⟨-, heff⟩ := exec_eq_next_iff.1 he
    cases heff with
    | dcStep =>
      have hlow : x.block.daisy.dstate = .awaitingEnable → c.wire (k + 1) = false := fun hp => by
        rw [h.wire_succ hx, hp]; rfl
      have hstep := Daisy.wired_step x.block.cfg x.nearLink _ (c.wire k) _ hlow
      rw [← hw] at hstep
      simp only [ChainNode.Wired, hstep, Daisy.wired_dstate]
      exact ⟨trivial, .next _ _ _ _⟩
    | feeds _ hf => exact absurd rfl hf
  · have hw := h.wired k x hx
    refine .inr ⟨k, x, t, hx, rfl, ?_⟩
    obtain ⟨hd, ha⟩ | ⟨_, _, rfl, -⟩ | ⟨a, rfl, hp, -, -, hd, ha⟩ | ⟨rfl, -⟩ := exec_daisy_cases he
    · simp only [ChainNode.Wired, hd, ha]
      exact ⟨hw, .stay _ _⟩
    · cases hi
    · rw [ChainNode.Wired, hp] at hw
      simp only [ChainNode.Wired, hd, ha, hp]
      refine ⟨?_, .granted _ a rfl⟩
      rw [hw]
      rfl
    · cases hpor

/-- A node of a chain in which node `k` was replaced is the new one, or one of before. -/
theorem Chain.of_nodes_set {k j : Nat} {x x' y : ChainNode} (hn : d.nodes = c.nodes.set k x') (hx : c.nodes[k]? = some x)
    (hy : d.nodes[j]? = some y) : (j = k ∧ y = x') ∨ (j ≠ k ∧ c.nodes[j]? = some y) := by
  obtain ⟨hk, -⟩ := List.getElem?_eq_some_iff.1 hx
  rw [hn, List.getElem?_set] at hy
  split at hy
  · next hkj => exact .inl ⟨hkj.symm, by simpa [hk, eq_comm] using hy⟩
  · next hkj => exact .inr ⟨Ne.symm hkj, hy⟩

/-- Every such move keeps the invariant: a node sees its enable only when the nodes before it are configured. -/
theorem Chain.Inv.move (h : c.Inv) {m : ChainMove} (hm : c.move m = some d) (hpor : m.isPor = false) : d.Inv := by
  obtain ⟨-, hn⟩ | ⟨k, x, t, hx, hn, hw, hmove⟩ := h.move_cases hm hpor
  · exact ⟨by rw [hn]; exact h.wired, by rw [hn]; exact h.front⟩
  · refine ⟨fun j y hy => ?_, fun i j y z hij hy hz hpast => ?_⟩
    · obtain ⟨-, rfl⟩ | ⟨-, hy⟩ := Chain.of_nodes_set hn hx hy
      · exact hw
      · exact h.wired j y hy
    · obtain ⟨rfl, rfl⟩ | ⟨hi, hy⟩ := Chain.of_nodes_set hn hx hy
      · obtain ⟨rfl, -⟩ | ⟨-, hz⟩ := Chain.of_nodes_set hn hx hz
        · omega
        · exact hmove.configured (h.front _ j x z hij hx hz hpast)
      · obtain ⟨rfl, rfl⟩ | ⟨-, hz⟩ := Chain.of_nodes_set hn hx hz
        · by_cases hp : x.block.daisy.dstate.past = true
          · exact h.front i _ y x hij hy hx hp
          · exact h.front_of_wire hij hy hx (hmove.wire_of_past hp hpast)
        · exact h.front i j y z hij hy hz hpast

end Moves

/-- A run of a chain keeps what each of its moves keeps, read with the moves still to come. -/
theorem Chain.run_induct {P : List ChainMove → Chain → Prop}
    (hstep : ∀ m ms c d, P (m :: ms) c → c.move m = some d → P ms d) {ms : List ChainMove} {c d : Chain} (h : P ms c)
    (hrun : c.run ms = some d) : P [] d := by
  induction ms generalizing c with
  | nil =>
    cases hrun
    exact h
  | cons m ms ih =>
    obtain ⟨e, hm, hrun⟩ := Chain.run_cons_eq_some_iff.1 hrun
    exact ih (hstep m ms c e h hm) hrun

/-- A chain of nodes from power-on meets the invariant. -/
theorem Chain.inv_of_fresh {c : Chain} (h : ∀ x ∈ c.nodes, x.fresh = true) : c.Inv where
  wired _ x hx := (ChainNode.wired_of_fresh (h x (List.mem_of_getElem? hx))).1
  front _ _ _ y _ _ hy hp := by
    rw [(ChainNode.wired_of_fresh (h y (List.mem_of_getElem? hy))).2] at hp
    cases hp

/-- So does every chain that a run without a power-on leads to. -/
theorem Chain.inv_of_run {c d : Chain} {ms : List ChainMove} (h : ∀ x ∈ c.nodes, x.fresh = true)
    (hpor : ∀ m ∈ ms, m.isPor = false) (hrun : c.run ms = some d) : d.Inv := by
  refine (Chain.run_induct (P := fun ms c => c.Inv ∧ ∀ m ∈ ms, m.isPor = false) ?_ ⟨Chain.inv_of_fresh h, hpor⟩ hrun).1
  rintro m ms c d ⟨hinv, hpor⟩ hm
  exact ⟨hinv.move hm (hpor m (.head _)), fun m hms => hpor m (.tail _ hms)⟩

theorem Chain.dstate_eq_some_iff {c : Chain} {k : Nat} {p : DState} :
    c.dstate k = some p ↔ ∃ x, c.nodes[k]? = some x ∧ x.block.daisy.dstate = p := by
  simp [Chain.dstate]

theorem Chain.address_eq_some_iff {c : Chain} {k : Nat} {a : Byte} :
    c.address k = some a ↔ ∃ x, c.nodes[k]? = some x ∧ x.block.myAddress = a := by
  simp [Chain.address]

/-- The addresses of a chain with the grants `gs` to come: those claimed are below them all, and rise along the chain. -/
structure Chain.Rising (gs : List Byte) (c : Chain) : Prop where
  below : ∀ (k : Nat) (x : ChainNode), c.nodes[k]? = some x → x.block.daisy.dstate.named = true →
    ∀ g ∈ gs, x.block.myAddress < g
  rise : ∀ (j k : Nat) (x y : ChainNode), j < k → c.nodes[j]? = some x → c.nodes[k]? = some y →
    y.block.daisy.dstate.named = true → x.block.myAddress < y.block.myAddress

/-- A move that is no power-on keeps the addresses rising: a grant is taken by the first node that has no address yet. -/
theorem Chain.Rising.move {gs hs : List Byte} {c d : Chain} {m : ChainMove} (h : Chain.Rising gs c) (hinv : c.Inv)
    (hm : c.move m = some d) (hpor : m.isPor = false) (hgs : gs = m.grant?.toList ++ hs) (hsort : gs.Pairwise (· < ·)) :
    Chain.Rising hs d := by
  have hsub : hs ⊆ gs := fun g hg => by rw [hgs]; exact List.mem_append_right _ hg
  obtain ⟨-, hn⟩ | ⟨k, x, t, hx, hn, -, hmove⟩ := hinv.move_cases hm hpor
  · exact
      { below := by rw [hn]; exact fun k x hx hp g hg => h.below k x hx hp g (hsub hg)
        rise := by rw [hn]; exact h.rise }
  have hgrant (hg : m.grant? = some t.myAddress) : t.myAddress ∈ gs ∧ ∀ g ∈ hs, t.myAddress < g := by
    rw [hgs, hg] at hsort ⊢
    exact ⟨.head _, (List.pairwise_cons.1 hsort).1⟩
  refine ⟨fun j y hy hp g hg => ?_, fun i j y z hij hy hz hp => ?_⟩
  · obtain ⟨rfl, rfl⟩ | ⟨-, hy⟩ := Chain.of_nodes_set hn hx hy
    · obtain ⟨hnamed, ha⟩ | ⟨-, hgr⟩ := hmove.named_cases hp
      · exact ha ▸ h.below _ x hx hnamed g (hsub hg)
      · exact (hgrant hgr).2 g hg
    · exact h.below j y hy hp g (hsub hg)
  · obtain ⟨rfl, rfl⟩ | ⟨-, hz⟩ := Chain.of_nodes_set hn hx hz
    · obtain ⟨rfl, -⟩ | ⟨-, hy⟩ := Chain.of_nodes_set hn hx hy
      · omega
      · obtain ⟨hnamed, ha⟩ | ⟨hclaim, hgr⟩ := hmove.named_cases hp
        · exact ha ▸ h.rise i _ y x hij hy hx hnamed
        · have hyc := hinv.front i _ y x hij hy hx (by rw [hclaim]; rfl)
          exact h.below i y hy (by rw [hyc]; rfl) _ (hgrant hgr).1
    · obtain ⟨rfl, rfl⟩ | ⟨-, hy⟩ := Chain.of_nodes_set hn hx hy
      · have hxc := hinv.front _ j x z hij hx hz (DState.past_of_named hp)
        obtain ⟨-, ha⟩ | ⟨hclaim, -⟩ := hmove.named_cases (by rw [hmove.configured hxc]; rfl)
        · exact ha ▸ h.rise _ j x z hij hx hz hp
        · simp [hxc] at hclaim
      · exact h.rise i j y z hij hy hz hp

/-- A run without a power-on, under rising grants, leads to rising addresses (R271, R272). -/
theorem Chain.rising_of_run {c d : Chain} {ms : List ChainMove} (h : ∀ x ∈ c.nodes, x.fresh = true)
    (hpor : ∀ m ∈ ms, m.isPor = false) (hsort : (ms.filterMap ChainMove.grant?).Pairwise (· < ·))
    (hrun : c.run ms = some d) : Chain.Rising [] d := by
  have hunnamed (k : Nat) (x : ChainNode) (hx : c.nodes[k]? = some x) : ¬x.block.daisy.dstate.named = true := by
    rw [(ChainNode.wired_of_fresh (h x (List.mem_of_getElem? hx))).2]
    decide
  have hrise : Chain.Rising (ms.filterMap ChainMove.grant?) c :=
    ⟨fun k x hx hp => absurd hp (hunnamed k x hx), fun _ k _ y _ _ hy hp => absurd hp (hunnamed k y hy)⟩
  refine (Chain.run_induct
    (P := fun ms c => c.Inv ∧ (∀ m ∈ ms, m.isPor = false) ∧ (ms.filterMap ChainMove.grant?).Pairwise (· < ·) ∧
      Chain.Rising (ms.filterMap ChainMove.grant?) c)
    ?_ ⟨Chain.inv_of_fresh h, hpor, hsort, hrise⟩ hrun).2.2.2
  rintro m ms c d ⟨hinv, hpor, hsort, hrise⟩ hm
  have hgs : (m :: ms).filterMap ChainMove.grant? = m.grant?.toList ++ ms.filterMap ChainMove.grant? := by
    rw [List.filterMap_cons]
    cases m.grant? <;> rfl
  have hm' := hpor m (.head _)
  refine ⟨hinv.move hm hm', fun m hms => hpor m (.tail _ hms), ?_, hrise.move hinv hm hm' hgs hsort⟩
  rw [hgs] at hsort
  exact (List.pairwise_append.1 hsort).2.1

/-- Settles O48: of two nodes that claim the nearer would be configured. -/
theorem atMostOneNodeClaims : Obligations.AtMostOneNodeClaims := by
  intro c d ms hfresh hpor hrun j k hj hk
  have hinv := Chain.inv_of_run hfresh hpor hrun
  obtain ⟨x, hx, hxp⟩ := Chain.dstate_eq_some_iff.1 hj
  obtain ⟨y, hy, hyp⟩ := Chain.dstate_eq_some_iff.1 hk
  rcases Nat.lt_trichotomy j k with hlt | heq | hlt
  · have := hinv.front j k x y hlt hx hy (by rw [hyp]; rfl)
    simp [hxp] at this
  · exact heq
  · have := hinv.front k j y x hlt hy hx (by rw [hxp]; rfl)
    simp [hyp] at this

/-- Settles O49: the far wire is the one that a waiting node would drive itself, and a wired node has its near link upstream. -/
theorem waitingNodeNeverSeesBothWires : Obligations.WaitingNodeNeverSeesBothWires := by
  intro c d ms hfresh hpor hrun
  have hinv := Chain.inv_of_run hfresh hpor hrun
  refine ⟨fun k hk => ?_, fun k x hx hup => ?_⟩
  · obtain ⟨x, hx, hp⟩ := Chain.dstate_eq_some_iff.1 hk
    rw [hinv.wire_succ hx, hp]
    rfl
  · rw [hinv.wired k x hx, Daisy.wired_up] at hup ⊢
    split at hup
    · next h => rw [if_pos h]
    · exact absurd rfl hup

/-- Settles O50: the nodes before one with an address are configured, and the addresses rise. -/
theorem claimedAddressesRiseAlongTheChain : Obligations.ClaimedAddressesRiseAlongTheChain := by
  intro c d ms hfresh hpor hgrants hrun j k a b hjk hj hk hp
  have hinv := Chain.inv_of_run hfresh hpor hrun
  have hrise := Chain.rising_of_run hfresh hpor (List.pairwise_cons.1 hgrants).2 hrun
  obtain ⟨x, hx, rfl⟩ := Chain.address_eq_some_iff.1 hj
  obtain ⟨y, hy, rfl⟩ := Chain.address_eq_some_iff.1 hk
  have hnamed : y.block.daisy.dstate.named = true := by
    simp only [Chain.dstate, hy, Option.map_some, Option.some.injEq] at hp
    rcases hp with hp | hp <;> rw [hp] <;> rfl
  exact ⟨Chain.dstate_eq_some_iff.2 ⟨x, hx, hinv.front j k x y hjk hx hy (DState.past_of_named hnamed)⟩,
    hrise.rise j k x y hjk hx hy hnamed⟩

end Sys2Proof.Machine
end

section
/-!
SUPPORT and CERTIFICATES. The boot of a chain (R272, 90_conflicts.md C8): the schedule of O51, run node by node over the chains
whose nodes stand in given states with given addresses.
-/

namespace Sys2Proof.Machine

/-- The node with its FSM in state `p` and its address `a`. -/
def ChainNode.standing (x : ChainNode) (p : DState) (a : Byte) : ChainNode :=
  { x with block := { x.block with daisy := Daisy.wired x.nearLink p, myAddress := a } }

/-- The chain with node `k` in the state and with the address that `f k` gives. -/
def Chain.standing (c : Chain) (f : Nat → DState × Byte) : Chain :=
  { c with nodes := c.nodes.mapIdx fun k x => x.standing (f k).1 (f k).2 }

/-- A chain that can boot: its number of nodes is right, the controller asserts its enable, and every block accepts events. -/
structure Chain.Bootable (c : Chain) : Prop where
  composed : c.composed = true
  enable : c.enable = true
  accepts : ∀ (k : Nat) (x : ChainNode), c.nodes[k]? = some x → x.block.Accepts

section Standing
variable {c : Chain} {f : Nat → DState × Byte} {k : Nat} {x : ChainNode}

theorem Chain.standing_getElem? (c : Chain) (f : Nat → DState × Byte) (k : Nat) :
    (c.standing f).nodes[k]? = (c.nodes[k]?).map fun x => x.standing (f k).1 (f k).2 := by
  simp [Chain.standing]

theorem Chain.standing_composed (c : Chain) (f : Nat → DState × Byte) : (c.standing f).composed = c.composed := by
  have hlen : (c.standing f).nodes.length = c.nodes.length := by simp [Chain.standing]
  have hmap : (c.standing f).nodes.map (·.block.cfg.nNodes) = c.nodes.map (·.block.cfg.nNodes) :=
    List.ext_getElem? fun k => by
      rw [List.getElem?_map, List.getElem?_map, Chain.standing_getElem?]
      cases c.nodes[k]? <;> rfl
  have hall (l : List ChainNode) (n : Nat) :
      (l.all fun x => x.block.cfg.nNodes == n) = (l.map (·.block.cfg.nNodes)).all (· == n) := by
    rw [List.all_map]; rfl
  rw [Chain.composed, Chain.composed, hlen, hall, hall, hmap]

/-- Only the states and addresses of the chain's own nodes count. -/
theorem Chain.standing_congr {g : Nat → DState × Byte} (h : ∀ k < c.nodes.length, f k = g k) :
    c.standing f = c.standing g := by
  unfold Chain.standing
  congr 1
  exact List.mapIdx_eq_mapIdx_iff.2 fun k hk => by rw [h k hk]

/-- Moving one node on moves it on in the chain. -/
theorem Chain.standing_set (hx : c.nodes[k]? = some x) (q : DState) (b : Byte) :
    { c.standing f with nodes := (c.standing f).nodes.set k (x.standing q b) } =
      c.standing (Function.update f k (q, b)) := by
  obtain ⟨hk, -⟩ := List.getElem?_eq_some_iff.1 hx
  refine congrArg (Chain.mk c.enable) (List.ext_getElem? fun j => ?_)
  refine Eq.trans ?_ (Chain.standing_getElem? c _ j).symm
  rw [List.getElem?_set, Chain.standing_getElem?]
  by_cases hj : k = j
  · subst hj
    have hlen : k < (c.standing f).nodes.length := by simpa [Chain.standing] using hk
    rw [if_pos rfl, if_pos hlen, hx, Function.update_self]
    rfl
  · rw [if_neg hj, Function.update_of_ne (Ne.symm hj)]

theorem Chain.standing_nearDrive (c : Chain) (f : Nat → DState × Byte) (k : Nat) : (c.standing f).nearDrive k = false := by
  rw [Chain.nearDrive, Chain.standing_getElem?]
  cases c.nodes[k]? with
  | none => rfl
  | some x => simp [ChainNode.driveNear, ChainNode.standing]

theorem Chain.standing_farDrive (hx : c.nodes[k]? = some x) : (c.standing f).farDrive k = ((f k).1 == .configured) := by
  rw [Chain.farDrive, Chain.standing_getElem?, hx]
  simp [ChainNode.driveFar, ChainNode.standing]

theorem Chain.standing_wire_succ (hx : c.nodes[k]? = some x) :
    (c.standing f).wire (k + 1) = ((f k).1 == .configured) := by
  rw [Chain.wire, Chain.standing_farDrive hx, Chain.standing_nearDrive, Bool.or_false]

/-- A node's near wire is high once the node before it, or the controller, drives it. -/
theorem Chain.Bootable.near_wire (h : c.Bootable) (hx : c.nodes[k]? = some x) (hf : ∀ j < k, (f j).1 = .configured) :
    (c.standing f).wire k = true := by
  cases k with
  | zero => rw [Chain.wire, Chain.standing, h.enable, Bool.true_or]
  | succ k =>
    obtain ⟨hlt, -⟩ := List.getElem?_eq_some_iff.1 hx
    rw [Chain.standing_wire_succ (List.getElem?_eq_getElem (by omega)), hf k (Nat.lt_succ_self k)]
    rfl

/-- A node steps on as its near wire has it (R270). -/
theorem Chain.Bootable.move_dcStep (h : c.Bootable) (hx : c.nodes[k]? = some x) :
    (c.standing f).move (.dcStep k) =
      some (c.standing (Function.update f k ((f k).1.next ((c.standing f).wire k), (f k).2))) := by
  have hget : (c.standing f).nodes[k]? = some (x.standing (f k).1 (f k).2) := by rw [Chain.standing_getElem?, hx]; rfl
  have hacc : (x.standing (f k).1 (f k).2).block.Accepts := h.accepts k x hx
  have hlow : (f k).1 = .awaitingEnable → (c.standing f).wire (k + 1) = false := fun hp => by
    rw [Chain.standing_wire_succ hx, hp]; rfl
  have hstep := Daisy.wired_step x.block.cfg x.nearLink _ ((c.standing f).wire k) _ hlow
  rw [Chain.move, Chain.standing_composed, if_pos h.composed, Chain.act, hget]
  refine Chain.runAt_eq_some_iff.2 ⟨_, _, hget, ?_, (Chain.standing_set hx _ _).symm⟩
  rw [Chain.sample_eq, exec_dcStep_of_accepts hacc]
  exact congrArg (fun d => Host.Outcome.next { (x.standing (f k).1 (f k).2).block with daisy := d }) hstep

/-- A claiming node takes a peripheral's address (R265, R266). -/
theorem Chain.Bootable.move_dcGrant (h : c.Bootable) (hx : c.nodes[k]? = some x) (hf : (f k).1 = .claimingAddress)
    {g : Byte} (hg : g ≠ x.block.cfg.ctrlAddr ∧ g ≠ 0) :
    (c.standing f).move (.event k (.dcGrant g)) = some (c.standing (Function.update f k (.enablingDownstream, g))) := by
  have hget : (c.standing f).nodes[k]? = some (x.standing .claimingAddress (f k).2) := by
    rw [Chain.standing_getElem?, hx, hf]; rfl
  have hacc : (x.standing .claimingAddress (f k).2).block.Accepts := h.accepts k x hx
  rw [Chain.move, Chain.standing_composed, if_pos h.composed]
  exact Chain.runAt_eq_some_iff.2 ⟨_, _, hget, exec_dcGrant_of_taken hacc ⟨rfl, hg⟩, (Chain.standing_set hx _ _).symm⟩

end Standing

/-- The nodes before `n` stand as `f` says, and the others as `g` does. -/
def firstThen (f g : Nat → DState × Byte) (n : Nat) (k : Nat) : DState × Byte := if k < n then f k else g k

theorem firstThen_of_lt {f g : Nat → DState × Byte} {n k : Nat} (h : k < n) : firstThen f g n k = f k := if_pos h

theorem firstThen_self (f g : Nat → DState × Byte) (n : Nat) : firstThen f g n n = g n := if_neg (Nat.lt_irrefl n)

/-- Moving node `n` on takes the boundary past it. -/
theorem update_firstThen (f g : Nat → DState × Byte) (n : Nat) :
    Function.update (firstThen f g n) n (f n) = firstThen f g (n + 1) := by
  funext k
  by_cases hk : k = n
  · rw [hk, Function.update_self, firstThen_of_lt (Nat.lt_succ_self n)]
  · rw [Function.update_of_ne hk, firstThen, firstThen, if_congr (by omega : k < n ↔ k < n + 1) rfl rfl]

/-- The nodes before `n` have taken their first step. -/
def waitingBefore : Nat → Nat → DState × Byte := firstThen (fun _ => (.awaitingEnable, 0)) fun _ => (.unconfigured, 0)

/-- The nodes before `n` are configured with their addresses, and the others wait. -/
def configuredBefore (addr : Nat → Byte) : Nat → Nat → DState × Byte :=
  firstThen (fun k => (.configured, addr k)) fun _ => (.awaitingEnable, 0)

/-- The three transitions of node `k` (R272). -/
def bootRound (addr : Nat → Byte) (k : Nat) : List ChainMove := [.dcStep k, .event k (.dcGrant (addr k)), .dcStep k]

theorem Chain.run_append {c d : Chain} {ms : List ChainMove} (h : c.run ms = some d) (ns : List ChainMove) :
    c.run (ms ++ ns) = d.run ns := by
  induction ms generalizing c with
  | nil =>
    cases h
    rfl
  | cons m ms ih =>
    obtain ⟨e, hm, hrun⟩ := Chain.run_cons_eq_some_iff.1 h
    rw [List.cons_append, Chain.run, hm]
    exact ih hrun

section Boot
variable {c : Chain} (h : c.Bootable)
include h

/-- The first steps take every node to wait for its enable (R261). -/
theorem Chain.Bootable.run_first_steps {n : Nat} (hn : n ≤ c.nodes.length) :
    (c.standing (waitingBefore 0)).run ((List.range n).map .dcStep) = some (c.standing (waitingBefore n)) := by
  induction n with
  | zero => rfl
  | succ n ih =>
    have hx := List.getElem?_eq_getElem (l := c.nodes) hn
    have hmove := h.move_dcStep (f := waitingBefore n) hx
    rw [waitingBefore, firstThen_self, DState.next, update_firstThen] at hmove
    rw [List.range_succ, List.map_append, Chain.run_append (ih (by omega))]
    exact Chain.run_cons_eq_some_iff.2 ⟨_, hmove, Chain.run_nil _⟩

/-- One round configures one node: its near wire is high, and each of its three transitions is its next (R272). -/
theorem Chain.Bootable.run_round {addr : Nat → Byte} {n : Nat} {x : ChainNode} (hx : c.nodes[n]? = some x)
    (ha : addr n ≠ x.block.cfg.ctrlAddr ∧ addr n ≠ 0) :
    (c.standing (configuredBefore addr n)).run (bootRound addr n) = some (c.standing (configuredBefore addr (n + 1))) := by
  have hself : configuredBefore addr n n = (.awaitingEnable, 0) := firstThen_self _ _ n
  have hwire : (c.standing (configuredBefore addr n)).wire n = true :=
    h.near_wire hx fun j hj => by rw [configuredBefore, firstThen_of_lt hj]
  have hlast : Function.update (configuredBefore addr n) n (.configured, addr n) = configuredBefore addr (n + 1) :=
    update_firstThen _ _ n
  have hclaim := h.move_dcStep (f := configuredBefore addr n) hx
  rw [hwire, hself] at hclaim
  have hgrant := h.move_dcGrant (f := Function.update (configuredBefore addr n) n (.claimingAddress, 0)) hx (by simp) ha
  rw [Function.update_idem] at hgrant
  have hfinish := h.move_dcStep (f := Function.update (configuredBefore addr n) n (.enablingDownstream, addr n)) hx
  rw [Function.update_self, Function.update_idem, DState.next, hlast] at hfinish
  exact Chain.run_cons_eq_some_iff.2 ⟨_, hclaim, Chain.run_cons_eq_some_iff.2 ⟨_, hgrant,
    Chain.run_cons_eq_some_iff.2 ⟨_, hfinish, Chain.run_nil _⟩⟩⟩

/-- The rounds configure the nodes in order. -/
theorem Chain.Bootable.run_rounds {addr : Nat → Byte}
    (ha : ∀ (k : Nat) (x : ChainNode), c.nodes[k]? = some x → addr k ≠ x.block.cfg.ctrlAddr ∧ addr k ≠ 0) {n : Nat}
    (hn : n ≤ c.nodes.length) :
    (c.standing (configuredBefore addr 0)).run ((List.range n).flatMap (bootRound addr)) =
      some (c.standing (configuredBefore addr n)) := by
  induction n with
  | zero => rfl
  | succ n ih =>
    have hx := List.getElem?_eq_getElem (l := c.nodes) hn
    rw [List.range_succ, List.flatMap_append, Chain.run_append (ih (by omega)), List.flatMap_singleton]
    exact h.run_round hx (ha n _ hx)

end Boot

/-- A fresh chain stands in `Unconfigured`, without an address. -/
theorem Chain.standing_of_fresh {c : Chain} (h : ∀ x ∈ c.nodes, x.fresh = true) : c.standing (waitingBefore 0) = c := by
  have hx (x : ChainNode) (hm : x ∈ c.nodes) : x.standing .unconfigured 0 = x := by
    have hf := h x hm
    simp only [ChainNode.fresh, Bool.and_eq_true, beq_iff_eq] at hf
    obtain ⟨⟨hd, ha⟩, -⟩ := hf
    rw [ChainNode.standing, Daisy.wired, ← hd, ← ha]
  refine congrArg (Chain.mk c.enable) (List.ext_getElem? fun k => ?_)
  rw [List.getElem?_mapIdx]
  cases hk : c.nodes[k]? with
  | none => rfl
  | some x => exact congrArg some (hx x (List.mem_of_getElem? hk))

/-- Settles O51: the first steps leave every node waiting, and the rounds configure one after another. -/
theorem threeTransitionsANodeConfigureTheChain : Obligations.ThreeTransitionsANodeConfigureTheChain := by
  intro c addr hcomp hen hnodes haddr
  have hboot : c.Bootable := ⟨hcomp, hen, fun k x hx => by
    obtain ⟨hf, hv⟩ := hnodes x (List.mem_of_getElem? hx)
    simp only [ChainNode.fresh, Bool.and_eq_true, Bool.not_eq_true'] at hf
    exact ⟨hv, hf.2⟩⟩
  have hfirst := hboot.run_first_steps le_rfl
  have hwait : c.standing (waitingBefore c.nodes.length) = c.standing (configuredBefore addr 0) :=
    Chain.standing_congr fun k hk => by rw [waitingBefore, firstThen_of_lt hk, configuredBefore, firstThen, if_neg (Nat.not_lt_zero k)]
  rw [Chain.standing_of_fresh fun x hx => (hnodes x hx).1, hwait] at hfirst
  refine ⟨_, (Chain.run_append hfirst _).trans (hboot.run_rounds haddr le_rfl), by simp [Chain.standing], fun k hk => ?_⟩
  have hx := List.getElem?_eq_getElem hk
  have hf : configuredBefore addr c.nodes.length k = (.configured, addr k) := firstThen_of_lt hk
  refine ⟨?_, ?_, ?_⟩
  · simp [Chain.dstate, Chain.standing_getElem?, hx, hf, ChainNode.standing]
  · simp [Chain.address, Chain.standing_getElem?, hx, hf, ChainNode.standing]
  · rw [Chain.standing_farDrive hx, hf]
    rfl

end Sys2Proof.Machine
end
